-- ==== Sys2Proof/Word.lean ====
section
/-! DEFINITION. The widths the spec names (00_scope.md R7, R8, R9): bytes, bus words, the 64-bit counter and the
65-bit transaction record. Nothing here computes anything. -/

namespace Sys2Proof

/-- A byte: an 8-bit unsigned value, bit 7 its most significant bit (R10). -/
abbrev Byte := BitVec 8

/-- A 32-bit word: bus data, bus offsets, DIFFICULTY, PLEN and every other register the host sees (R8, R18). -/
abbrev Word := BitVec 32

/-- The width of COUNTER and RESULT (R7, R26, R27). -/
abbrev Count := BitVec 64

/-- One host bus transaction as the 65-bit pattern of R61: bit 64 `rw`, bits 63..32 `off`, bits 31..0 `wdata`. -/
abbrev BusTx := BitVec 65

/-- A 32-byte digest, `Dig[0]` first (R7, R29). -/
abbrev Digest := Vector Byte 32

end Sys2Proof
end

