-- ==== Sys2Proof/Syntax.lean ====
section
/-! DEFINITION. The instructions: one constructor per row of spec/opcode_table.json (R57, R59, R61). -/

namespace Sys2Proof

/-- What the host can make the block do. The first four are the command words of the CTRL register (R59), which carry no
operand (R62); the last two are the bus transactions (R61), whose operands are used unmodified (R62). -/
inductive Instr where
  | nop
  | check
  | search
  | clear
  | rd (off : Word)
  | wr (off wdata : Word)
deriving DecidableEq, Repr

end Sys2Proof
end

