-- ==== Sys2Proof/WellFormed.lean ====
section
/-! DEFINITION. The checks on raw numbers that the spec makes: which command words, which transaction records and which
payload capacities are legal. -/

namespace Sys2Proof

/-- R60: a command word is legal iff its bits 31..4 are 0 and its bits 3..0 are at most 3. -/
def cmdLegal (w : Word) : Bool :=
  w.extractLsb' 4 28 == 0#28 && decide ((w.extractLsb' 0 4).toNat ≤ 3)

/-- R61: a transaction record has 65 bits. -/
def recordLegal (n : Nat) : Bool := decide (n < 2 ^ 65)

/-- R8: P_MAXPAY is a multiple of 4 with 4 ≤ P_MAXPAY ≤ 0xFFFFF000. -/
def capacityLegal (cap : Word) : Bool :=
  decide (cap.toNat % 4 = 0) && decide (4 ≤ cap.toNat) && decide (cap.toNat ≤ 0xFFFFF000)

/-- Well-formedness of an instruction: every value of every operand has a meaning (R39 and R31 give one to misaligned and
reserved offsets, R62: operands are used unmodified), so no term is ill-formed; what is illegal is a raw word, above. -/
def Instr.wellFormed : Instr → Bool
  | .nop => true
  | .check => true
  | .search => true
  | .clear => true
  | .rd _ => true
  | .wr _ _ => true

end Sys2Proof
end

