-- ==== Sys2Proof/Decode.lean ====
section
/-! DEFINITION. The command decoder (R66), the transaction decoder (R61), both as one total decoder of bytes that rejects
by name, and the encoder. -/

namespace Sys2Proof

/-- What `decode_cmd` answers (R66). -/
inductive Cmd where
  | nop
  | check
  | search
  | clear
  | illegal
deriving DecidableEq, Repr

/-- Why a byte string is no instruction. All three are safe: nothing is executed. -/
inductive Reject where
  /-- A command word outside R60. -/
  | illegalCommand
  /-- Nine bytes whose value does not fit the 65 bits of R61. -/
  | notATransaction
  /-- Neither the 4 bytes of a command word nor the 9 bytes that hold a transaction record. -/
  | badLength
deriving DecidableEq, Repr

/-- R66, as the spec writes it. -/
def decodeCmd (w : Word) : Cmd :=
  if w.extractLsb' 4 28 ≠ 0#28 then .illegal
  else if w.extractLsb' 0 4 = 0x0#4 then .nop
  else if w.extractLsb' 0 4 = 0x1#4 then .check
  else if w.extractLsb' 0 4 = 0x2#4 then .search
  else if w.extractLsb' 0 4 = 0x3#4 then .clear
  else .illegal

/-- R61: bit 64 tells a write from a read; a read ignores `wdata`. -/
def decodeBustx (t : BusTx) : Instr :=
  if t.getLsbD 64 then .wr (t.extractLsb' 32 32) (t.extractLsb' 0 32)
  else .rd (t.extractLsb' 32 32)

/-- The number a byte string stands for, the first byte least significant (log 6). -/
def leNat : List Byte → Nat
  | [] => 0
  | b :: bs => b.toNat + 256 * leNat bs

/-- `n` bytes of the number `v`, least significant first (log 6). -/
def leBytes : Nat → Nat → List Byte
  | 0, _ => []
  | n + 1, v => BitVec.ofNat 8 v :: leBytes n (v / 256)

/-- The instruction a command stands for, or the refusal of an illegal word (R60). -/
def Cmd.toInstr : Cmd → Except Reject Instr
  | .nop => .ok .nop
  | .check => .ok .check
  | .search => .ok .search
  | .clear => .ok .clear
  | .illegal => .error .illegalCommand

/-- The decoder: four bytes are a command word (R58), nine bytes hold a transaction record (R61). -/
def decode (bs : List Byte) : Except Reject Instr :=
  if bs.length = 4 then (decodeCmd (BitVec.ofNat 32 (leNat bs))).toInstr
  else if bs.length = 9 then
    if recordLegal (leNat bs) then .ok (decodeBustx (BitVec.ofNat 65 (leNat bs)))
    else .error .notATransaction
  else .error .badLength

/-- How many bytes an opcode-table row of `nbits` bits is delivered in (32: CMD; 65, or 72 in whole bytes: BUSTX). -/
def rowBytes (nbits : Nat) : Option Nat :=
  if nbits = 32 then some 4
  else if nbits = 65 then some 9
  else if nbits = 72 then some 9
  else none

/-- The instruction the decoder reads from a row's word, bits numbered as spec/opcode_table.json numbers them. -/
def decodeTableWord (nbits w : Nat) : Option Instr :=
  match rowBytes nbits with
  | none => none
  | some n =>
    if w < 256 ^ n then
      match decode (leBytes n w) with
      | .ok i => some i
      | .error _ => none
    else none

/-- The command word of R59's table; bus transactions have none. -/
def Instr.cmdWord : Instr → Option Word
  | .nop => some 0x00000000#32
  | .check => some 0x00000001#32
  | .search => some 0x00000002#32
  | .clear => some 0x00000003#32
  | .rd _ => none
  | .wr _ _ => none

/-- The record of a bus read, its ignored `wdata` 0 (R61; log 12). -/
def rdTx (off : Word) : BusTx := 0#1 ++ off ++ 0#32

/-- The record of a bus write (R61). -/
def wrTx (off wdata : Word) : BusTx := 1#1 ++ off ++ wdata

/-- The transaction that delivers an instruction to the block: a command is the data of a write to CTRL, offset 0
(R57, R65: `CMD SEARCH` = `WR CTRL, 0x00000002`). -/
def Instr.deliver : Instr → BusTx
  | .nop => wrTx 0 0x00000000#32
  | .check => wrTx 0 0x00000001#32
  | .search => wrTx 0 0x00000002#32
  | .clear => wrTx 0 0x00000003#32
  | .rd off => rdTx off
  | .wr off v => wrTx off v

/-- The number an instruction's row word is, bit 0 least significant: a 32-bit command word or a 65-bit record. -/
def Instr.tableWord : Instr → Nat
  | .nop => 0
  | .check => 1
  | .search => 2
  | .clear => 3
  | .rd off => (rdTx off).toNat
  | .wr off v => (wrTx off v).toNat

/-- The row's width in whole bytes. -/
def Instr.byteLength : Instr → Nat
  | .nop => 4
  | .check => 4
  | .search => 4
  | .clear => 4
  | .rd _ => 9
  | .wr _ _ => 9

/-- The row's `mask` in spec/opcode_table.json. -/
def Instr.rowMask : Instr → Nat
  | .nop => 0xFFFFFFFF
  | .check => 0xFFFFFFFF
  | .search => 0xFFFFFFFF
  | .clear => 0xFFFFFFFF
  | .rd _ => 0x10000000000000000
  | .wr _ _ => 0x10000000000000000

/-- The row's `match` in spec/opcode_table.json. -/
def Instr.rowMatch : Instr → Nat
  | .nop => 0x00000000
  | .check => 0x00000001
  | .search => 0x00000002
  | .clear => 0x00000003
  | .rd _ => 0x00000000000000000
  | .wr _ _ => 0x10000000000000000

/-- The encoder: the bytes of an instruction's word. -/
def encode (i : Instr) : List Byte := leBytes i.byteLength i.tableWord

/-- The bus transaction that delivers a row's word: a command word goes to CTRL (R57), a record is itself. -/
def tableTx (nbits w : Nat) : Option BusTx :=
  match rowBytes nbits with
  | none => none
  | some n =>
    if n = 4 then
      if w < 2 ^ 32 then some (wrTx 0 (BitVec.ofNat 32 w)) else none
    else if recordLegal w then some (BitVec.ofNat 65 w) else none

end Sys2Proof
end

