-- ==== Sys2Proof/Config.lean ====
section
/-! DEFINITION. What the spec leaves open: the values no rule fixes, each an opaque constant no proof can look into,
and the one parameter value that `State.reset` has to name. -/

namespace Sys2Proof

/-- Who takes a step (R6): the host, the block's controller CTRL_FSM, the external SHA-256 core, and the platform,
whose only step is reset. -/
inductive Agent where
  | host
  | ctrl
  | sha
  | platform
deriving DecidableEq, Repr, Inhabited

/-- FREE VALUE (log 1). "Any enabled step of any agent may be taken next" (R6), "which agent steps next is not fixed"
(R51): the agent of draw number `k`, used when `State.schedule` names no agent. -/
opaque Config.freeAgent : Nat → Agent

/-- FREE VALUE (log 3). The content of payload byte `i` after power-up: "a free draw at reset (one value per byte,
stable until a host write replaces it)" (R123, U6). -/
opaque Config.powerOnByte : Nat → Byte

/-- DESIGN CHOICE (log 2). The payload capacity P_MAXPAY that `State.reset` starts with. P_MAXPAY is OPEN (R8); this is the
value the spec's own vectors use (95_test_vectors.md). Every meaning reads `State.maxPay`, never this constant. -/
def Config.resetCapacity : Word := 64#32

end Sys2Proof
end

