-- ==== Sys2Proof/Machine/State.lean ====
section
/-! DEFINITION. The state of the block and of the agents around it, as plain data, and its value after reset. -/

namespace Sys2Proof.Machine

/-- The controller state STATE with its six values (R17); codes 6 and 7 are never held. -/
inductive CtrlState where
  | idle
  | issue
  | wait
  | test
  | found
  | exhausted
deriving DecidableEq, Repr

/-- The four sticky error bits STATUS[11:8] (R20, R23). -/
inductive ErrBit where
  | cmd
  | busy
  | param
  | access
deriving DecidableEq, Repr

/-- One line of a host program (R64, R65): a bus transaction, or `POLL off, mask, value`, which repeats `RD off` until
the value read, masked, equals `value`. -/
inductive HostOp where
  | tx (bits : BusTx)
  | poll (off mask value : Word)
deriving DecidableEq, Repr

/-- The machine. The first thirteen fields are the block's (10_state.md); the last four are the model's own: the value
last returned to the host, and the plain data that says which agent steps next and what the host will do. -/
structure State where
  /-- STATE (R17). -/
  ctrl : CtrlState
  /-- STATUS.PASS (R22). -/
  pass : Bool
  /-- STATUS.ERR_CMD (R23). -/
  errCmd : Bool
  /-- STATUS.ERR_BUSY (R23). -/
  errBusy : Bool
  /-- STATUS.ERR_PARAM (R23). -/
  errParam : Bool
  /-- STATUS.ERR_ACCESS (R23). -/
  errAccess : Bool
  /-- DIFFICULTY (R24). -/
  difficulty : Word
  /-- PLEN (R25). -/
  plen : Word
  /-- COUNTER (R26). -/
  counter : Count
  /-- RESULT (R27). -/
  result : Count
  /-- MAXPAY, the parameter P_MAXPAY of this block (R8, R28): no step writes it. -/
  maxPay : Word
  /-- DIGEST, `Dig[0..31]` (R29). -/
  digest : Digest
  /-- The payload buffer `Pay` (R30): the bytes written since power-up, index and value, indexes strictly rising. -/
  payload : List Host.Cell
  /-- The pending-request record (R32): REQ_PENDING is whether there is one, REQ_MSG is its message
  (log 8). -/
  req : Option (List Byte)
  /-- The `rdata` the most recent host read returned (R61, R99; log 7). -/
  rdata : Word
  /-- The host's lines still to come, in program order (R51, R64). -/
  hostOps : List HostOp
  /-- The agents that step next (R6, R51); when it is empty the next agent is a free value. -/
  schedule : List Agent
  /-- How many free agents have been drawn. -/
  draws : Nat
deriving DecidableEq, Repr

/-- No step of this block stops with a fault: every transaction, command and internal step is total (R39, R60, R75, R81,
R83, R85, R109), so no constructor is needed. -/
inductive Fault where
deriving DecidableEq, Repr

/-- Why the model has no meaning for an instruction. -/
inductive Refusal where
  /-- Raised by an arm of `exec` whose instruction has no meaning yet; safe. No arm does. -/
  | notModelled (mnemonic : String)
deriving DecidableEq, Repr

/-- Right after the first reset of a block with payload capacity `cap` (R36, R122): everything 0, no request, no payload
byte written. No host line is waiting and no agent is named (log 1, log 5). -/
def State.resetWith (cap : Word) : State where
  ctrl := .idle
  pass := false
  errCmd := false
  errBusy := false
  errParam := false
  errAccess := false
  difficulty := 0
  plen := 0
  counter := 0
  result := 0
  maxPay := cap
  digest := Vector.replicate 32 0#8
  payload := []
  req := none
  rdata := 0
  hostOps := []
  schedule := []
  draws := 0

/-- The machine right after reset. Its capacity is the choice of log 2; everything else is R36's. -/
def State.reset : State := State.resetWith Config.resetCapacity

end Sys2Proof.Machine
end

