-- ==== Sys2Proof/Machine/Ops.lean ====
section
/-! DEFINITION. The named updates of the state, `raise` (what this block has in place of a trap), the byte lanes, the
payload buffer and the digest bytes. -/

namespace Sys2Proof.Machine

def State.setCtrl (s : State) (c : CtrlState) : State := { s with ctrl := c }
def State.setPass (s : State) (b : Bool) : State := { s with pass := b }
def State.setDifficulty (s : State) (v : Word) : State := { s with difficulty := v }
def State.setPlen (s : State) (v : Word) : State := { s with plen := v }
def State.setCounter (s : State) (c : Count) : State := { s with counter := c }
def State.setResult (s : State) (c : Count) : State := { s with result := c }
def State.setDigest (s : State) (d : Digest) : State := { s with digest := d }
def State.setPayload (s : State) (m : List Host.Cell) : State := { s with payload := m }
def State.setReq (s : State) (r : Option (List Byte)) : State := { s with req := r }
def State.setRdata (s : State) (v : Word) : State := { s with rdata := v }
def State.setHostOps (s : State) (l : List HostOp) : State := { s with hostOps := l }

/-- `raise ERR_X` sets that sticky bit and nothing else (R11, R110, R111); "it is not a trap": no state is saved and
control goes nowhere (R109, R115). -/
def State.raise (s : State) (e : ErrBit) : State :=
  { s with
    errCmd := s.errCmd || e == .cmd
    errBusy := s.errBusy || e == .busy
    errParam := s.errParam || e == .param
    errAccess := s.errAccess || e == .access }

/-- All four sticky bits to 0, as CLEAR and reset do (R98, R122). -/
def State.clearErrors (s : State) : State :=
  { s with errCmd := false, errBusy := false, errParam := false, errAccess := false }

/-- Lane `j` of a bus word: bits `8j+7..8j` (R40). -/
def lane (v : Word) (j : Nat) : Byte := v.extractLsb' (8 * j) 8

/-- The word at a byte-array offset, `{b3, b2, b1, b0}` (R40). -/
def laneWord (b0 b1 b2 b3 : Byte) : Word := b3 ++ b2 ++ b1 ++ b0

/-- The stored byte at an address; `none` if nothing was written there since power-up. -/
def Memory.find : List Host.Cell → Nat → Option Byte
  | [], _ => none
  | c :: m, a => if c.1 = a then some c.2 else Memory.find m a

/-- Stores a byte, keeping the addresses strictly rising. -/
def Memory.set : List Host.Cell → Nat → Byte → List Host.Cell
  | [], a, b => [(a, b)]
  | c :: m, a, b =>
    if a < c.1 then (a, b) :: c :: m
    else if a = c.1 then (a, b) :: m
    else c :: Memory.set m a b

/-- The canonical form: addresses strictly rising. What an unlisted address stores is "nothing written yet", so no
entry can equal it (log 3). -/
def Memory.wf : List Host.Cell → Bool
  | [] => true
  | [_] => true
  | c :: d :: m => decide (c.1 < d.1) && Memory.wf (d :: m)

/-- `Pay[i]` (R30): the byte written there, else the free draw of power-up (R123). -/
def State.payByte (s : State) (i : Nat) : Byte := (Memory.find s.payload i).getD (Config.powerOnByte i)

/-- The payload word at index `o` of the buffer (R102). -/
def State.payWord (s : State) (o : Nat) : Word :=
  laneWord (s.payByte o) (s.payByte (o + 1)) (s.payByte (o + 2)) (s.payByte (o + 3))

/-- Writes the payload word at index `o` (R102). -/
def State.writePayWord (s : State) (o : Nat) (v : Word) : State :=
  s.setPayload
    (Memory.set (Memory.set (Memory.set (Memory.set s.payload o (lane v 0)) (o + 1) (lane v 1)) (o + 2) (lane v 2))
      (o + 3) (lane v 3))

/-- `Dig[i]` (R29). Every use has `i < 32`. -/
def digByte (d : Digest) (i : Nat) : Byte := d[i]?.getD 0

/-- The digest word at byte `o` (R103). -/
def digWord (d : Digest) (o : Nat) : Word :=
  laneWord (digByte d o) (digByte d (o + 1)) (digByte d (o + 2)) (digByte d (o + 3))

/-- Writes the digest word at byte `o` (R103). -/
def writeDigWord (d : Digest) (o : Nat) (v : Word) : Digest :=
  (((d.setIfInBounds o (lane v 0)).setIfInBounds (o + 1) (lane v 1)).setIfInBounds (o + 2) (lane v 2)).setIfInBounds
    (o + 3) (lane v 3)

/-- The digest whose byte `i` is byte `i` of a byte string. -/
def digestOfBytes (bs : List Byte) : Digest := ⟨⟨(List.range 32).map fun i => bs.getD i 0⟩, by simp⟩

/-- `le64(c)`: byte `j` is bits `8j+7..8j` (R10). -/
def le64 (c : Count) : List Byte := (List.range 8).map fun j => c.extractLsb' (8 * j) 8

/-- `Pay[0..PLEN)` (R79). -/
def State.payBytes (s : State) : List Byte := (List.range s.plen.toNat).map s.payByte

/-- The message `M(COUNTER) = Pay[0..PLEN) ++ le64(COUNTER)` (R79). -/
def State.message (s : State) : List Byte := s.payBytes ++ le64 s.counter

end Sys2Proof.Machine
end

