-- ==== Sys2Proof/Machine/Operands.lean ====
section
/-! DEFINITION. The register map: what a bus offset names (R18, R31, R39, R41, R42). -/

namespace Sys2Proof.Machine

/-- What a 32-bit byte offset names. `digest o` and `payload o` carry the byte index of the word's first byte. -/
inductive Target where
  | misaligned
  | ctrl
  | status
  | difficulty
  | plen
  | counterLo
  | counterHi
  | resultLo
  | resultHi
  | maxPay
  | digest (o : Nat)
  | payload (o : Nat)
  | reserved
deriving DecidableEq, Repr

/-- The register map of R18 for a block of payload capacity `cap`; alignment is tested first (R39, R111). -/
def target (cap off : Word) : Target :=
  let o := off.toNat
  if o % 4 ≠ 0 then .misaligned
  else if o = 0x000 then .ctrl
  else if o = 0x004 then .status
  else if o = 0x008 then .difficulty
  else if o = 0x00C then .plen
  else if o = 0x010 then .counterLo
  else if o = 0x014 then .counterHi
  else if o = 0x018 then .resultLo
  else if o = 0x01C then .resultHi
  else if o = 0x020 then .maxPay
  else if 0x040 ≤ o ∧ o < 0x060 then .digest (o - 0x040)
  else if 0x1000 ≤ o ∧ o - 0x1000 < cap.toNat then .payload (o - 0x1000)
  else .reserved

/-- The symbolic offsets of the host-script syntax (R64). -/
def Off.ctrl : Word := 0x000#32
def Off.status : Word := 0x004#32
def Off.difficulty : Word := 0x008#32
def Off.plen : Word := 0x00C#32
def Off.counterLo : Word := 0x010#32
def Off.counterHi : Word := 0x014#32
def Off.resultLo : Word := 0x018#32
def Off.resultHi : Word := 0x01C#32
def Off.maxPay : Word := 0x020#32
/-- DIGESTk (R64). -/
def Off.digest (k : Nat) : Word := BitVec.ofNat 32 (0x040 + 4 * k)
/-- PAY(k) (R64). -/
def Off.pay (k : Nat) : Word := BitVec.ofNat 32 (0x1000 + 4 * k)

end Sys2Proof.Machine
end

