-- ==== Sys2Proof/Machine/Flags.lean ====
section
/-! DEFINITION. The STATUS word, its derived bits and the irq output (R17, R20, R21, R33, R113). -/

namespace Sys2Proof.Machine

/-- The code of a controller state (R17). -/
def CtrlState.code : CtrlState → BitVec 3
  | .idle => 0#3
  | .issue => 1#3
  | .wait => 2#3
  | .test => 3#3
  | .found => 4#3
  | .exhausted => 5#3

/-- BUSY = (STATE in 1, 2, 3) (R21). -/
def State.busy (s : State) : Bool :=
  match s.ctrl with
  | .idle => false
  | .issue => true
  | .wait => true
  | .test => true
  | .found => false
  | .exhausted => false

/-- DONE = (STATE in 4, 5) (R21). -/
def State.done (s : State) : Bool :=
  match s.ctrl with
  | .idle => false
  | .issue => false
  | .wait => false
  | .test => false
  | .found => true
  | .exhausted => true

/-- FOUND = (STATE = 4) (R21). -/
def State.foundBit (s : State) : Bool := s.ctrl == .found

/-- EXHAUSTED = (STATE = 5) (R21). -/
def State.exhaustedBit (s : State) : Bool := s.ctrl == .exhausted

/-- The completion signal: `irq` equals STATUS.DONE at every moment (R33, R113). -/
def State.irq (s : State) : Bool := s.done

/-- STATUS as read: bits 31..12 are 0, then ERR_ACCESS, ERR_PARAM, ERR_BUSY, ERR_CMD, PASS, EXHAUSTED, FOUND, DONE, BUSY
and STATE (R20, R99). -/
def State.statusWord (s : State) : Word :=
  0#20 ++ BitVec.ofBool s.errAccess ++ BitVec.ofBool s.errParam ++ BitVec.ofBool s.errBusy ++ BitVec.ofBool s.errCmd
    ++ BitVec.ofBool s.pass ++ BitVec.ofBool s.exhaustedBit ++ BitVec.ofBool s.foundBit ++ BitVec.ofBool s.done
    ++ BitVec.ofBool s.busy ++ s.ctrl.code

end Sys2Proof.Machine
end

