-- ==== Sys2Proof/Machine/Predicate.lean ====
section
/-! DEFINITION. The zero-prefix predicate (40_predicate.md) and the CHECK command. -/

namespace Sys2Proof.Machine

/-- The mask of source step 3, `(0xFF << (8 - r)) & 0xFF`: the top `r` bits of a byte (R67, R68). -/
def topMask (r : Nat) : Byte := 0xFF#8 <<< (8 - r)

/-- `pred(Dig, n)` (R67), its guard `n > 256` first (R71, C1): `q` whole zero bytes, then the top `r` bits of the next. -/
def pred (d : Digest) (n : Word) : Bool :=
  if 256 < n.toNat then false
  else
    let q := n.toNat / 8
    let r := n.toNat % 8
    if (List.range q).all fun i => digByte d i == 0x00#8 then
      if 0 < r then digByte d q &&& topMask r == 0x00#8 else true
    else false

/-- Bit `k` of the digest in reading order: `Dig[k / 8][7 - (k % 8)]` (R43). -/
def digestBit (d : Digest) (k : Nat) : Bool := (digByte d (k / 8)).getLsbD (7 - k % 8)

/-- The number of leading zero bits from bit `k` on, looking at `fuel` bits. -/
def leadingZerosFrom (d : Digest) : Nat → Nat → Nat
  | 0, k => k
  | fuel + 1, k => if digestBit d k then k else leadingZerosFrom d fuel (k + 1)

/-- `lz(Dig)`: the least `k` whose bit is 1, or 256 (R72). -/
def leadingZeros (d : Digest) : Nat := leadingZerosFrom d 256 0

/-- CHECK (R77): refused while BUSY with ERR_BUSY, else PASS takes the predicate's result. -/
def execCheck (s : State) : Host.Outcome State Fault Refusal :=
  .next (if s.busy then s.raise .busy else s.setPass (pred s.digest s.difficulty))

end Sys2Proof.Machine
end

