-- ==== Sys2Proof/Machine/Sha256.lean ====
section
/-! DEFINITION. The external core's function: SHA-256 as FIPS 180-4 defines it, which R84 tells a model to instantiate
(general knowledge, G1; log 4). Written so that Lean's kernel can evaluate it. -/

namespace Sys2Proof.Machine

/-- The 64 round constants (log 4). -/
def shaK : List Word :=
  [0x428a2f98, 0x71374491, 0xb5c0fbcf, 0xe9b5dba5, 0x3956c25b, 0x59f111f1, 0x923f82a4, 0xab1c5ed5] ++
  [0xd807aa98, 0x12835b01, 0x243185be, 0x550c7dc3, 0x72be5d74, 0x80deb1fe, 0x9bdc06a7, 0xc19bf174] ++
  [0xe49b69c1, 0xefbe4786, 0x0fc19dc6, 0x240ca1cc, 0x2de92c6f, 0x4a7484aa, 0x5cb0a9dc, 0x76f988da] ++
  [0x983e5152, 0xa831c66d, 0xb00327c8, 0xbf597fc7, 0xc6e00bf3, 0xd5a79147, 0x06ca6351, 0x14292967] ++
  [0x27b70a85, 0x2e1b2138, 0x4d2c6dfc, 0x53380d13, 0x650a7354, 0x766a0abb, 0x81c2c92e, 0x92722c85] ++
  [0xa2bfe8a1, 0xa81a664b, 0xc24b8b70, 0xc76c51a3, 0xd192e819, 0xd6990624, 0xf40e3585, 0x106aa070] ++
  [0x19a4c116, 0x1e376c08, 0x2748774c, 0x34b0bcb5, 0x391c0cb3, 0x4ed8aa4a, 0x5b9cca4f, 0x682e6ff3] ++
  [0x748f82ee, 0x78a5636f, 0x84c87814, 0x8cc70208, 0x90befffa, 0xa4506ceb, 0xbef9a3f7, 0xc67178f2]

/-- The initial hash value H0..H7. -/
def shaInit : List Word :=
  [0x6a09e667, 0xbb67ae85, 0x3c6ef372, 0xa54ff53a, 0x510e527f, 0x9b05688c, 0x1f83d9ab, 0x5be0cd19]

/-- Rotation to the right, `0 < n < 32`. -/
def rotr (x : Word) (n : Nat) : Word := (x >>> n) ||| (x <<< (32 - n))

def shaCh (x y z : Word) : Word := (x &&& y) ^^^ (~~~x &&& z)
def shaMaj (x y z : Word) : Word := (x &&& y) ^^^ (x &&& z) ^^^ (y &&& z)
def shaBigSigma0 (x : Word) : Word := rotr x 2 ^^^ rotr x 13 ^^^ rotr x 22
def shaBigSigma1 (x : Word) : Word := rotr x 6 ^^^ rotr x 11 ^^^ rotr x 25
def shaSmallSigma0 (x : Word) : Word := rotr x 7 ^^^ rotr x 18 ^^^ (x >>> 3)
def shaSmallSigma1 (x : Word) : Word := rotr x 17 ^^^ rotr x 19 ^^^ (x >>> 10)

/-- Word `i` of a block, its first byte most significant. -/
def shaBlockWord (bs : List Byte) (i : Nat) : Word :=
  bs.getD (4 * i) 0 ++ bs.getD (4 * i + 1) 0 ++ bs.getD (4 * i + 2) 0 ++ bs.getD (4 * i + 3) 0

/-- `n` further words of the message schedule; the list holds the newest word first. -/
def shaExtend : Nat → List Word → List Word
  | 0, w => w
  | n + 1, w =>
    shaExtend n
      ((shaSmallSigma1 (w.getD 1 0) + w.getD 6 0 + shaSmallSigma0 (w.getD 14 0) + w.getD 15 0) :: w)

/-- The 64 words of a block's message schedule, in order. -/
def shaSchedule (b : List Byte) : List Word :=
  (shaExtend 48 ((List.range 16).map (shaBlockWord b)).reverse).reverse

/-- One round on the working variables a..h. -/
def shaRound (v : List Word) (kw : Word × Word) : List Word :=
  match v with
  | [a, b, c, d, e, f, g, h] =>
    let t1 := h + shaBigSigma1 e + shaCh e f g + kw.1 + kw.2
    let t2 := shaBigSigma0 a + shaMaj a b c
    [t1 + t2, a, b, c, d + t1, e, f, g]
  | v => v

/-- The hash value after one more block. -/
def shaCompress (h : List Word) (b : List Byte) : List Word :=
  List.zipWith (· + ·) h ((List.zip shaK (shaSchedule b)).foldl shaRound h)

/-- Eight bytes, most significant first. -/
def be64 (n : Nat) : List Byte := (List.range 8).map fun j => BitVec.ofNat 8 (n / 2 ^ (8 * (7 - j)))

/-- The padded message: a 1 bit, zeros up to 56 modulo 64 bytes, the length in bits. -/
def shaPad (m : List Byte) : List Byte :=
  m ++ 0x80#8 :: List.replicate ((119 - m.length % 64) % 64) 0x00#8 ++ be64 (8 * m.length)

/-- A byte string cut into `n` blocks of 64 bytes. -/
def shaBlocks : Nat → List Byte → List (List Byte)
  | 0, _ => []
  | n + 1, l => l.take 64 :: shaBlocks n (l.drop 64)

/-- The four bytes of a word, most significant first. -/
def beWordBytes (w : Word) : List Byte := (List.range 4).map fun j => w.extractLsb' (8 * (3 - j)) 8

/-- The 32 bytes of SHA-256 of a message: H0..H7, each most significant byte first (R84). -/
def shaBytes (m : List Byte) : List Byte :=
  ((shaBlocks ((shaPad m).length / 64) (shaPad m)).foldl shaCompress shaInit).flatMap beWordBytes

/-- `sha256(m)` (R84). -/
def sha256 (m : List Byte) : Digest := digestOfBytes (shaBytes m)

end Sys2Proof.Machine
end

