-- ==== Sys2Proof/Machine/Search.lean ====
section
/-! DEFINITION. The SEARCH command and the internal steps ISSUE, RESPOND and TEST (41_search.md). -/

namespace Sys2Proof.Machine

/-- What an accepted SEARCH does (R78): COUNTER, RESULT and PASS to 0, STATE to ISSUE. -/
def startSearch (s : State) : State := (((s.setCounter 0).setResult 0).setPass false).setCtrl .issue

/-- SEARCH (R78): ERR_BUSY while a search runs, ERR_PARAM if PLEN > P_MAXPAY, else the search starts. The difficulty is
never checked (R88). -/
def execSearch (s : State) : Host.Outcome State Fault Refusal :=
  .next
    (if s.busy then s.raise .busy
    else if s.maxPay.toNat < s.plen.toNat then s.raise .param
    else startSearch s)

/-- The ISSUE step (R81): the message becomes the pending request. -/
def issueStep (s : State) : State := (s.setReq (some s.message)).setCtrl .wait

/-- The SHA response step for the pending message `m` (R83). -/
def respondStep (s : State) (m : List Byte) : State := ((s.setDigest (sha256 m)).setReq none).setCtrl .test

/-- The TEST step (R85): test the digest; stop at a solution, else count on, modulo 2^64, and stop if the counter is 0
again. -/
def testStep (s : State) : State :=
  if pred s.digest s.difficulty then ((s.setPass true).setResult s.counter).setCtrl .found
  else if s.counter + 1 = 0 then ((s.setPass false).setCounter (s.counter + 1)).setCtrl .exhausted
  else ((s.setPass false).setCounter (s.counter + 1)).setCtrl .issue

/-- A step of CTRL_FSM: ISSUE or TEST, whichever is enabled (R6, R17); where neither is, nothing happens (log 1). -/
def ctrlStep (s : State) : State :=
  match s.ctrl with
  | .idle => s
  | .issue => issueStep s
  | .wait => s
  | .test => testStep s
  | .found => s
  | .exhausted => s

/-- A step of SHA: the response, enabled iff REQ_PENDING = 1 (R83); else nothing happens (log 1). -/
def shaStep (s : State) : State :=
  match s.req with
  | none => s
  | some m => respondStep s m

end Sys2Proof.Machine
end

