-- ==== Sys2Proof/Machine/Control.lean ====
section
/-! DEFINITION. NOP, CLEAR and the host's bus transactions RD and WR (42_control.md). -/

namespace Sys2Proof.Machine

/-- NOP (R97): no effect, in any state. -/
def execNop (s : State) : Host.Outcome State Fault Refusal := .next s

/-- CLEAR (R98): the sticky error bits to 0, and a finished search back to IDLE; it does not cancel a running one.
RESULT is kept (log 9). -/
def execClear (s : State) : Host.Outcome State Fault Refusal :=
  .next (if s.done then s.clearErrors.setCtrl .idle else s.clearErrors)

/-- What a bus read returns (R99); 0 for CTRL, a misaligned or a reserved offset. -/
def readWord (t : Target) (s : State) : Word :=
  match t with
  | .misaligned => 0#32
  | .ctrl => 0#32
  | .status => s.statusWord
  | .difficulty => s.difficulty
  | .plen => s.plen
  | .counterLo => s.counter.extractLsb' 0 32
  | .counterHi => s.counter.extractLsb' 32 32
  | .resultLo => s.result.extractLsb' 0 32
  | .resultHi => s.result.extractLsb' 32 32
  | .maxPay => s.maxPay
  | .digest o => digWord s.digest o
  | .payload o => s.payWord o
  | .reserved => 0#32

/-- What a bus read does to the block (R99, R48): ERR_ACCESS for a misaligned or reserved offset, else nothing. -/
def readEffect (t : Target) (s : State) : State :=
  match t with
  | .misaligned => s.raise .access
  | .ctrl => s
  | .status => s
  | .difficulty => s
  | .plen => s
  | .counterLo => s
  | .counterHi => s
  | .resultLo => s
  | .resultHi => s
  | .maxPay => s
  | .digest _ => s
  | .payload _ => s
  | .reserved => s.raise .access

/-- RD (R99): the word at `off` goes to the host. Never refused for BUSY. -/
def execRd (off : Word) (s : State) : Host.Outcome State Fault Refusal :=
  .next ((readEffect (target s.maxPay off) s).setRdata (readWord (target s.maxPay off) s))

/-- A write to CTRL executes the command decoded from its data (R66); an illegal word raises ERR_CMD only (R60). -/
def execCommand (v : Word) (s : State) : Host.Outcome State Fault Refusal :=
  match decodeCmd v with
  | .nop => execNop s
  | .check => execCheck s
  | .search => execSearch s
  | .clear => execClear s
  | .illegal => .next (s.raise .cmd)

/-- A write that BUSY locks out (R18, R100): dropped with ERR_BUSY while a search runs, else `t`. -/
def unlessBusy (s t : State) : State := if s.busy then s.raise .busy else t

/-- WR (R100), in the order of its tests: misaligned, CTRL, read-only or reserved, BUSY, then the write. -/
def execWr (off v : Word) (s : State) : Host.Outcome State Fault Refusal :=
  match target s.maxPay off with
  | .misaligned => .next (s.raise .access)
  | .ctrl => execCommand v s
  | .status => .next (s.raise .access)
  | .difficulty => .next (unlessBusy s (s.setDifficulty v))
  | .plen => .next (unlessBusy s (s.setPlen v))
  | .counterLo => .next (s.raise .access)
  | .counterHi => .next (s.raise .access)
  | .resultLo => .next (s.raise .access)
  | .resultHi => .next (s.raise .access)
  | .maxPay => .next (s.raise .access)
  | .digest o => .next (unlessBusy s (s.setDigest (writeDigWord s.digest o v)))
  | .payload o => .next (unlessBusy s (s.writePayWord o v))
  | .reserved => .next (s.raise .access)

/-- The byte image of the result: RESULT_LO lanes 0..3, then RESULT_HI lanes 0..3 (R45, R104). -/
def State.resultImage (s : State) : List Byte :=
  ((List.range 4).map fun j => lane (readWord .resultLo s) j) ++ ((List.range 4).map fun j => lane (readWord .resultHi s) j)

end Sys2Proof.Machine
end

