-- ==== Sys2Proof/Machine/Reset.lean ====
section
/-! DEFINITION. The platform's reset step (70_reset_and_hazards.md). -/

namespace Sys2Proof.Machine

/-- RESET (R122), a step the platform may take in any state (R121): the registers, the digest and the pending request are
cleared; the payload buffer stays as it was (R123), and so does what stands outside the block
(log 13). -/
def resetStep (s : State) : State :=
  { s with
    ctrl := .idle
    pass := false
    errCmd := false
    errBusy := false
    errParam := false
    errAccess := false
    difficulty := 0
    plen := 0
    counter := 0
    result := 0
    digest := Vector.replicate 32 0#8
    req := none }

end Sys2Proof.Machine
end

