-- ==== Sys2Proof/Machine/Agents.lean ====
section
/-! DEFINITION. Whose step is next, and one step of each agent (R6, R51). -/

namespace Sys2Proof.Machine

/-- The agent that steps next: the one the schedule names, else a free value (log 1). -/
def nextAgent (s : State) : Agent :=
  match s.schedule with
  | a :: _ => a
  | [] => Config.freeAgent s.draws

/-- The state once that choice is used up. -/
def advance (s : State) : State :=
  match s.schedule with
  | _ :: l => { s with schedule := l }
  | [] => { s with draws := s.draws + 1 }

/-- A step of HOST: its next line. A transaction is decoded and executed; `POLL` is one bus read, and its line stays until
the value read, masked, is the value waited for (R65). A host with no line left does nothing (log 5). -/
def hostStep (s : State) : Host.Outcome State Fault Refusal :=
  match s.hostOps with
  | [] => .next s
  | .tx t :: rest => exec (decodeBustx t) (s.setHostOps rest)
  | .poll off mask value :: rest =>
    match exec (.rd off) s with
    | .next t => .next (if t.rdata &&& mask = value then t.setHostOps rest else t)
    | .fault f => .fault f
    | .refused r => .refused r

/-- One step of one agent (R6). -/
def agentStep (a : Agent) (s : State) : Host.Outcome State Fault Refusal :=
  match a with
  | .host => hostStep s
  | .ctrl => .next (ctrlStep s)
  | .sha => .next (shaStep s)
  | .platform => .next (resetStep s)

/-- Puts a transaction first in the host's program and the host first in the schedule. -/
def State.placeTx (s : State) (t : BusTx) : State :=
  { s with hostOps := .tx t :: s.hostOps, schedule := .host :: s.schedule }

/-- The same with the row word `w` of `nbits` bits; a number that is no word of a row leaves the state as it is. -/
def State.placeTableWord (s : State) (nbits w : Nat) : State :=
  match tableTx nbits w with
  | none => s
  | some t => s.placeTx t

/-- `WAITDONE` = `POLL STATUS, 0x00000010, 0x00000010` (R65). -/
def waitDone : HostOp := .poll Off.status 0x00000010#32 0x00000010#32

/-- `CMD <command>` and the other one-line forms (R64, R65). -/
def hostLine (i : Instr) : HostOp := .tx i.deliver

/-- `RD64 <lo>` = `RD <lo>` then `RD <lo+4>` (R65). -/
def rd64 (lo : Word) : List HostOp := [.tx (rdTx lo), .tx (rdTx (lo + 4))]

/-- The value `RD64` names, `{b, a}` (R65). -/
def rd64Value (a b : Word) : Count := b ++ a

end Sys2Proof.Machine
end

