-- ==== Sys2Proof/Machine/Step.lean ====
section
/-! DEFINITION. One step of the machine, and the host's way to hand it an instruction. -/

namespace Sys2Proof.Machine

/-- One atomic step (R6, R51): the agent whose turn it is takes its step. -/
def step (s : State) : Host.Outcome State Fault Refusal :=
  agentStep (nextAgent s) (advance s)

/-- The state whose very next step runs the row word `w` of `nbits` bits: its transaction stands first in the host's
program and the host is first in the schedule (log 5). -/
def State.withFetchWord (s : State) (nbits w : Nat) : State := s.placeTableWord nbits w

end Sys2Proof.Machine
end

