-- ==== Sys2Proof/Safety.lean ====
section
/-! DEFINITION. What the claims are stated in: the invariant of R37, the search a running block is on, and how a search
ends (R89, R96). -/

namespace Sys2Proof.Machine

/-- Where a listed payload byte may stand: inside the buffer (R30). -/
def Memory.within (cap : Nat) (m : List Host.Cell) : Bool := m.all fun c => decide (c.1 < cap)

/-- The invariant of every reachable state. `pending` to `exhausted` are R37; `message` and `digest` say what R17 says of
WAIT and TEST; `running` is R78 and R126; the last three are R8 and the form of the payload buffer. -/
structure State.Inv (s : State) : Prop where
  pending : s.req.isSome = true ↔ s.ctrl = .wait
  fits : s.busy = true → s.plen.toNat ≤ s.maxPay.toNat
  found : s.ctrl = .found → s.counter = s.result
  exhausted : s.ctrl = .exhausted → s.counter = 0 ∧ s.result = 0
  message : s.ctrl = .wait → s.req = some s.message
  digest : s.ctrl = .test → s.digest = sha256 s.message
  running : s.busy = true → s.result = 0 ∧ s.pass = false
  capacity : capacityLegal s.maxPay = true
  payloadForm : Memory.wf s.payload = true
  payloadFits : Memory.within s.maxPay.toNat s.payload = true

/-- Whether counter `c` solves payload `p` at difficulty `n`: `pred(sha256(p ++ le64(c)), n)` (R89). -/
def solves (p : List Byte) (n : Word) (c : Count) : Bool := pred (sha256 (p ++ le64 c)) n

/-- `c` is `min S` of R89: it solves, and no smaller counter does. -/
def IsSolution (p : List Byte) (n : Word) (c : Count) : Prop :=
  solves p n c = true ∧ ∀ c' : Count, c' < c → solves p n c' = false

/-- A search for payload `p` at difficulty `n` is running, and every counter below COUNTER has failed (R85, R87). -/
structure State.Searching (s : State) (p : List Byte) (n : Word) : Prop where
  inv : s.Inv
  busy : s.busy = true
  payload : s.payBytes = p
  difficulty : s.difficulty = n
  failed : ∀ c : Count, c < s.counter → solves p n c = false

/-- The end of a search that found the least solution (R96). -/
structure State.EndsFound (s : State) (p : List Byte) (n : Word) : Prop where
  ctrl : s.ctrl = .found
  least : IsSolution p n s.result
  counter : s.counter = s.result
  pass : s.pass = true
  digest : s.digest = sha256 (p ++ le64 s.result)
  irq : s.irq = true

/-- The end of a search that tested every counter in vain (R96). -/
structure State.EndsExhausted (s : State) (p : List Byte) (n : Word) : Prop where
  ctrl : s.ctrl = .exhausted
  none : ∀ c : Count, solves p n c = false
  counter : s.counter = 0
  result : s.result = 0
  pass : s.pass = false
  digest : s.digest = sha256 (p ++ le64 (BitVec.allOnes 64))
  irq : s.irq = true

/-- The state is the end of a search for `p` at `n` (R89, R93, R96). -/
def State.Ends (s : State) (p : List Byte) (n : Word) : Prop := s.EndsFound p n ∨ s.EndsExhausted p n

/-- The run of `k` steps from `s` ends in `t`: the first state in which the search is over (R93); no reset cuts the run
short. -/
def State.RunEnds (s : State) (k : Nat) (t : State) : Prop :=
  (∀ j u, j < k → Sys2Proof.core.run j s = .next u → State.busy u = true ∧ nextAgent u ≠ .platform) ∧
    Sys2Proof.core.run k s = .next t ∧ t.done = true

/-- How many block steps the search has taken since SEARCH: three for each counter tested, and those for this counter; a
search that ended in EXHAUSTED has tested all of them (R87, R94). -/
def State.progress (s : State) : Nat :=
  3 * s.counter.toNat +
    match s.ctrl with
    | .idle => 0
    | .issue => 0
    | .wait => 1
    | .test => 2
    | .found => 3
    | .exhausted => 3 * 2 ^ 64

/-- The steps one counter takes: ISSUE, response, TEST (R94). -/
def searchRound : List Agent := [.ctrl, .sha, .ctrl]

/-- Everything of the block but the four error bits is equal; `rdata`, the host's lines and the choice of agents are left
out. -/
structure SameBlock (s t : State) : Prop where
  ctrl : t.ctrl = s.ctrl
  pass : t.pass = s.pass
  difficulty : t.difficulty = s.difficulty
  plen : t.plen = s.plen
  counter : t.counter = s.counter
  result : t.result = s.result
  maxPay : t.maxPay = s.maxPay
  digest : t.digest = s.digest
  payload : t.payload = s.payload
  req : t.req = s.req

/-- The four error bits are equal. -/
structure SameErrors (s t : State) : Prop where
  errCmd : t.errCmd = s.errCmd
  errBusy : t.errBusy = s.errBusy
  errParam : t.errParam = s.errParam
  errAccess : t.errAccess = s.errAccess

/-- What stands outside the block is equal: the value last returned to the host, its lines, and the choice of agents. -/
structure SameOutside (s t : State) : Prop where
  rdata : t.rdata = s.rdata
  hostOps : t.hostOps = s.hostOps
  schedule : t.schedule = s.schedule
  draws : t.draws = s.draws

/-- The number of error bits that are set. -/
def State.errorCount (s : State) : Nat :=
  s.errCmd.toNat + s.errBusy.toNat + s.errParam.toNat + s.errAccess.toNat

end Sys2Proof.Machine
end

