-- ==== Sys2Proof/Certificates/Slice0/Obligations.lean ====
section
/-! DEFINITION. The statements for the provers, from the numbered rules of spec/. -/

open Sys2Proof Sys2Proof.Machine

/-! ## Encoding -/

/-- Words written out from the spec's encodings (R58, R59, R61; 95_test_vectors.md P1, P5): the four command words, a read of
STATUS, a write of DIFFICULTY; and an illegal command word (R60) is rejected. That nine bytes with a bit above bit 64 are
rejected is the model's choice (log 6). -/
def Obligations.TableWordsDecode : Prop :=
  decodeTableWord 32 0x00000000 = some .nop ∧
  decodeTableWord 32 0x00000001 = some .check ∧
  decodeTableWord 32 0x00000002 = some .search ∧
  decodeTableWord 32 0x00000003 = some .clear ∧
  decodeTableWord 65 0x00000000400000000 = some (.rd 0x004#32) ∧
  decodeTableWord 65 0x10000000800000013 = some (.wr 0x008#32 0x13#32) ∧
  decodeTableWord 32 0x00000010 = none ∧
  decodeTableWord 72 0x20000000000000000 = none

/-- R59, R66: which word each command is, and that every other word is illegal. -/
def Obligations.CommandDecoderMap : Prop :=
  ∀ w : Word,
    (decodeCmd w = .nop ↔ w = 0x00000000#32) ∧
    (decodeCmd w = .check ↔ w = 0x00000001#32) ∧
    (decodeCmd w = .search ↔ w = 0x00000002#32) ∧
    (decodeCmd w = .clear ↔ w = 0x00000003#32) ∧
    (decodeCmd w = .illegal ↔ 4 ≤ w.toNat)

/-- R60: legality of a command word, and the one effect of an illegal word, in every state: ERR_CMD and nothing else. -/
def Obligations.IllegalCommandRaisesErrCmdOnly : Prop :=
  ∀ (w : Word) (s : State),
    (decodeCmd w ≠ .illegal ↔ w.extractLsb' 4 28 = 0#28 ∧ (w.extractLsb' 0 4).toNat ≤ 3) ∧
    (decodeCmd w = .illegal → exec (.wr 0x000#32 w) s = .next { s with errCmd := true })

/-- R58, R61: decoding the encoding of any instruction gives it back, with every value of every operand. -/
def Obligations.DecodeEncodeAgree : Prop :=
  ∀ i : Instr, decode (encode i) = .ok i

/-- R61: every 65-bit record is a transaction; a write's record is kept bit for bit, and a read's but for the ignored
`wdata`. -/
def Obligations.EveryRecordIsATransaction : Prop :=
  ∀ t : BusTx,
    decode (leBytes 9 t.toNat) = .ok (decodeBustx t) ∧
    (t.getLsbD 64 = true → (decodeBustx t).deliver = t) ∧
    (t.getLsbD 64 = false → (decodeBustx t).deliver = t.extractLsb' 32 33 ++ 0#32)

/-- R10: `le64(c)` is eight bytes and its byte `j` is `c[8j+7:8j]`. -/
def Obligations.CounterBytesLittleEndian : Prop :=
  ∀ c : Count, (le64 c).length = 8 ∧ ∀ j, j < 8 → (le64 c)[j]? = some (c.extractLsb' (8 * j) 8)

/-- R45: the bytes of RESULT_LO and RESULT_HI, read in lane order, are `le64(RESULT)`. -/
def Obligations.ResultImageIsLe64 : Prop :=
  ∀ s : State, s.resultImage = le64 s.result

/-! ## The step -/

/-- R6, R51, R61: when it is the host's turn and its next transaction decodes to `i`, the step is `exec i`, with that line
and that turn used up. The order of turns is plain data or a free value (log 1). -/
def Obligations.StepRunsTheDecodedTransaction : Prop :=
  ∀ (s : State) (t : BusTx) (rest : List HostOp) (i : Instr),
    nextAgent s = .host → s.hostOps = .tx t :: rest → decode (leBytes 9 t.toNat) = .ok i →
    step s = exec i ((advance s).setHostOps rest)

/-- R57, R59, R66: a command word delivered as the data of a write to CTRL runs as that command, in `exec` and in `step`. -/
def Obligations.CommandRunsWhenWrittenToCtrl : Prop :=
  ∀ (s : State) (w : Word) (i : Instr), i.cmdWord = some w →
    exec (.wr 0x000#32 w) s = exec i s ∧
    ∀ rest, nextAgent s = .host → s.hostOps = .tx (wrTx 0x000#32 w) :: rest →
      step s = exec i ((advance s).setHostOps rest)

/-- R6, R17: the steps of the other agents, and that choosing an agent changes nothing but the choice. An agent whose step is
not enabled does nothing (the model's choice, log 1). -/
def Obligations.StepOfTheOtherAgents : Prop :=
  ∀ s : State,
    (nextAgent s = .ctrl → step s = .next (ctrlStep (advance s))) ∧
    (nextAgent s = .sha → step s = .next (shaStep (advance s))) ∧
    (nextAgent s = .platform → step s = .next (resetStep (advance s))) ∧
    (nextAgent s = .host → s.hostOps = [] → step s = .next (advance s)) ∧
    (∀ a l, s.schedule = a :: l → nextAgent s = a ∧ advance s = { s with schedule := l }) ∧
    (s.schedule = [] → advance s = { s with draws := s.draws + 1 })

/-- R65: `POLL` reads once a step; its line is gone exactly when the value read, masked, is the value waited for. -/
def Obligations.PollRepeatsUntilMatch : Prop :=
  ∀ (s : State) (off mask value : Word) (rest : List HostOp),
    nextAgent s = .host → s.hostOps = .poll off mask value :: rest →
    ∃ u, exec (.rd off) (advance s) = .next u ∧
      (u.rdata &&& mask = value → step s = .next { u with hostOps := rest }) ∧
      (u.rdata &&& mask ≠ value → step s = .next u ∧ u.hostOps = s.hostOps)

/-- The interface of log 5: the very next step after `withFetchWord` runs the row's instruction, and nothing of it is left
behind. -/
def Obligations.FetchWordRunsNext : Prop :=
  ∀ (s : State) (nbits w : Nat) (i : Instr),
    decodeTableWord nbits w = some i → step (s.withFetchWord nbits w) = exec i s

/-- R39, R60, R75, R109: no transaction, command or internal step is without a next state. -/
def Obligations.EveryStepHasANextState : Prop :=
  ∀ s : State, (∀ i, ∃ t, exec i s = .next t) ∧ ∃ t, step s = .next t

/-! ## Reset -/

/-- R122: the reset step, in any state. That it leaves the host's lines, the choice of agents and P_MAXPAY as they are is
DEDUCED (log 13), and that it leaves `rdata` is the model's choice (log 7); that it leaves the payload buffer is R123. -/
def Obligations.ResetStepClearsTheBlock : Prop :=
  ∀ s : State, nextAgent s = .platform →
    step s = .next
      { advance s with
        ctrl := .idle, pass := false
        errCmd := false, errBusy := false, errParam := false, errAccess := false
        difficulty := 0, plen := 0, counter := 0, result := 0
        digest := Vector.replicate 32 0x00#8, req := none }

/-- R124: after the reset step the block is IDLE and quiescent, `irq` is 0 and STATUS reads 0. -/
def Obligations.ResetLeavesQuiescentIdle : Prop :=
  ∀ s t : State, nextAgent s = .platform → step s = .next t →
    t.ctrl = .idle ∧ ctrlStep t = t ∧ shaStep t = t ∧ t.irq = false ∧
    exec (.rd 0x004#32) t = .next { t with rdata := 0x00000000#32 }

/-- R123: each payload byte is a free draw after the first reset, and later resets leave the buffer as it was. -/
def Obligations.PayloadSurvivesReset : Prop :=
  (∀ i, State.reset.payByte i = Config.powerOnByte i) ∧
  ∀ s t : State, nextAgent s = .platform → step s = .next t → ∀ i, t.payByte i = s.payByte i

/-- R36: the values after reset, for a block of any capacity. `State.reset` is such a block of a legal capacity; which one is
the model's choice (log 2). -/
def Obligations.ResetStateValues : Prop :=
  (∀ cap : Word,
    let s := State.resetWith cap
    s.ctrl = .idle ∧ s.pass = false ∧
    s.errCmd = false ∧ s.errBusy = false ∧ s.errParam = false ∧ s.errAccess = false ∧
    s.difficulty = 0 ∧ s.plen = 0 ∧ s.counter = 0 ∧ s.result = 0 ∧ s.maxPay = cap ∧
    (∀ i, i < 32 → digByte s.digest i = 0x00#8) ∧ s.req = none ∧ s.irq = false ∧
    exec (.rd 0x004#32) s = .next { s with rdata := 0x00000000#32 } ∧
    exec (.rd 0x020#32) s = .next { s with rdata := cap }) ∧
  ∃ cap, capacityLegal cap = true ∧ State.reset = State.resetWith cap

/-! ## The predicate -/

/-- R67 (with R71's guard): the predicate is true iff the first `n` bits in reading order are zero, and `n` is at most 256. -/
def Obligations.PredTestsTheFirstBits : Prop :=
  ∀ (d : Digest) (n : Word),
    pred d n = true ↔ n.toNat ≤ 256 ∧ ∀ k, k < n.toNat → (digByte d (k / 8)).getLsbD (7 - k % 8) = false

/-- R72: `lz` is the least bit that is 1, or 256, and the predicate is `n <= lz`. -/
def Obligations.PredIsLeadingZeroCount : Prop :=
  ∀ d : Digest,
    leadingZeros d ≤ 256 ∧
    (∀ k, k < leadingZeros d → digestBit d k = false) ∧
    (leadingZeros d < 256 → digestBit d (leadingZeros d) = true) ∧
    ∀ n : Word, pred d n = decide (n.toNat ≤ leadingZeros d)

/-- R73: the predicate bounds the digest read as a 256-bit big-endian number. -/
def Obligations.PredIsBigEndianBound : Prop :=
  ∀ (d : Digest) (n : Word),
    pred d n = true ↔
      n.toNat ≤ 256 ∧
      ∑ i ∈ Finset.range 32, (digByte d i).toNat * 2 ^ (8 * (31 - i)) < 2 ^ (256 - n.toNat)

/-- R74: the predicate is monotone, and so is the least solution of one payload, which
exists for `m` whenever one exists for `n`. -/
def Obligations.PredAndSolutionsMonotone : Prop :=
  (∀ (d : Digest) (m n : Word), pred d n = true → m ≤ n → pred d m = true) ∧
  ∀ (p : List Byte) (m n : Word) (c' : Count),
    m ≤ n → IsSolution p n c' → ∃ c, IsSolution p m c ∧ c ≤ c'

/-- R69, R70, R71: difficulty 0 passes every digest, 256 the all-zero digest only, and 257 or more none. -/
def Obligations.PredAtTheEdges : Prop :=
  ∀ d : Digest,
    pred d 0#32 = true ∧
    (pred d 256#32 = true ↔ ∀ i, i < 32 → digByte d i = 0x00#8) ∧
    ∀ n : Word, 257 ≤ n.toNat → pred d n = false

/-! ## Commands -/

/-- R97: NOP has no effect, in any state. -/
def Obligations.NopHasNoEffect : Prop :=
  ∀ s : State, exec .nop s = .next s

/-- R77: CHECK writes PASS and nothing else; while BUSY it is refused with ERR_BUSY and nothing else changes. -/
def Obligations.CheckWritesPass : Prop :=
  ∀ s : State,
    (s.busy = false → exec .check s = .next { s with pass := pred s.digest s.difficulty }) ∧
    (s.busy = true → exec .check s = .next { s with errBusy := true })

/-- R78: SEARCH starts a search whatever the difficulty, or is refused with one error bit. -/
def Obligations.SearchStartsOrIsRefused : Prop :=
  ∀ s : State,
    (s.busy = false → s.plen.toNat ≤ s.maxPay.toNat →
      exec .search s = .next { s with counter := 0, result := 0, pass := false, ctrl := .issue }) ∧
    (s.busy = true → exec .search s = .next { s with errBusy := true }) ∧
    (s.busy = false → s.maxPay.toNat < s.plen.toNat → exec .search s = .next { s with errParam := true })

/-- R98: CLEAR clears the four error bits in every state and takes FOUND and EXHAUSTED to IDLE; nothing else changes.
That RESULT is kept is the model's reading of R98 and V55 against R27 (DEDUCED, log 9). -/
def Obligations.ClearAcknowledges : Prop :=
  ∀ s : State,
    (s.ctrl = .found ∨ s.ctrl = .exhausted → exec .clear s = .next
      { s with errCmd := false, errBusy := false, errParam := false, errAccess := false, ctrl := .idle }) ∧
    (s.ctrl ≠ .found → s.ctrl ≠ .exhausted → exec .clear s = .next
      { s with errCmd := false, errBusy := false, errParam := false, errAccess := false })

/-! ## Host transactions -/

/-- R99, R31, R39: what a read returns at every offset, that it is refused in no state, and that it changes nothing but
`rdata`, and ERR_ACCESS at a misaligned or reserved offset. -/
def Obligations.ReadReturnsTheWord : Prop :=
  ∀ (s : State) (off : Word),
    (off.toNat % 4 ≠ 0 → exec (.rd off) s = .next { s with errAccess := true, rdata := 0 }) ∧
    (off = 0x000#32 → exec (.rd off) s = .next { s with rdata := 0 }) ∧
    (off = 0x004#32 → exec (.rd off) s = .next { s with rdata := s.statusWord }) ∧
    (off = 0x008#32 → exec (.rd off) s = .next { s with rdata := s.difficulty }) ∧
    (off = 0x00C#32 → exec (.rd off) s = .next { s with rdata := s.plen }) ∧
    (off = 0x010#32 → exec (.rd off) s = .next { s with rdata := s.counter.extractLsb' 0 32 }) ∧
    (off = 0x014#32 → exec (.rd off) s = .next { s with rdata := s.counter.extractLsb' 32 32 }) ∧
    (off = 0x018#32 → exec (.rd off) s = .next { s with rdata := s.result.extractLsb' 0 32 }) ∧
    (off = 0x01C#32 → exec (.rd off) s = .next { s with rdata := s.result.extractLsb' 32 32 }) ∧
    (off = 0x020#32 → exec (.rd off) s = .next { s with rdata := s.maxPay }) ∧
    (∀ k, k < 8 → off.toNat = 0x040 + 4 * k → exec (.rd off) s = .next
      { s with rdata := digByte s.digest (4 * k + 3) ++ digByte s.digest (4 * k + 2) ++ digByte s.digest (4 * k + 1)
          ++ digByte s.digest (4 * k) }) ∧
    (∀ k, 4 * k < s.maxPay.toNat → off.toNat = 0x1000 + 4 * k → exec (.rd off) s = .next
      { s with rdata := s.payByte (4 * k + 3) ++ s.payByte (4 * k + 2) ++ s.payByte (4 * k + 1) ++ s.payByte (4 * k) }) ∧
    (off.toNat % 4 = 0 →
      0x024 ≤ off.toNat ∧ off.toNat < 0x040 ∨ 0x060 ≤ off.toNat ∧ off.toNat < 0x1000 ∨
        0x1000 + s.maxPay.toNat ≤ off.toNat →
      exec (.rd off) s = .next { s with errAccess := true, rdata := 0 })

/-- R100, R31, R39, R111: a write to a misaligned, read-only or reserved offset is dropped and raises ERR_ACCESS only, in
every state, BUSY or not. -/
def Obligations.WriteOutsideTheMapRaisesErrAccess : Prop :=
  ∀ (s : State) (off v : Word),
    off.toNat % 4 ≠ 0 ∨
      off.toNat ∈ [0x004, 0x010, 0x014, 0x018, 0x01C, 0x020] ∨
      (off.toNat % 4 = 0 ∧
        (0x024 ≤ off.toNat ∧ off.toNat < 0x040 ∨ 0x060 ≤ off.toNat ∧ off.toNat < 0x1000 ∨
          0x1000 + s.maxPay.toNat ≤ off.toNat)) →
    exec (.wr off v) s = .next { s with errAccess := true }

/-- R18, R100, R127: while BUSY a write to DIFFICULTY, PLEN, a DIGEST word or a payload word is dropped and raises ERR_BUSY
only. -/
def Obligations.WriteWhileBusyIsDropped : Prop :=
  ∀ (s : State) (off v : Word), s.busy = true →
    off = 0x008#32 ∨ off = 0x00C#32 ∨ (∃ k, k < 8 ∧ off.toNat = 0x040 + 4 * k) ∨
      (∃ k, 4 * k < s.maxPay.toNat ∧ off.toNat = 0x1000 + 4 * k) →
    exec (.wr off v) s = .next { s with errBusy := true }

/-- R101: an accepted write to DIFFICULTY or PLEN stores every value unchanged, and a later read returns it. -/
def Obligations.WriteConfigurationReadsBack : Prop :=
  ∀ (s : State) (v : Word), s.busy = false →
    exec (.wr 0x008#32 v) s = .next { s with difficulty := v } ∧
    exec (.wr 0x00C#32 v) s = .next { s with plen := v } ∧
    exec (.rd 0x008#32) { s with difficulty := v } = .next { s with difficulty := v, rdata := v } ∧
    exec (.rd 0x00C#32) { s with plen := v } = .next { s with plen := v, rdata := v }

/-- R40, R102: an accepted write of a payload word sets its four bytes, lowest byte first, leaves every other byte of the
buffer and everything else as it was, and reads back. -/
def Obligations.WritePayloadWordSetsFourBytes : Prop :=
  ∀ (s : State) (off v : Word) (k : Nat), s.busy = false →
    4 * k < s.maxPay.toNat → off.toNat = 0x1000 + 4 * k →
    ∃ t, exec (.wr off v) s = .next t ∧
      t.payByte (4 * k) = v.extractLsb' 0 8 ∧ t.payByte (4 * k + 1) = v.extractLsb' 8 8 ∧
      t.payByte (4 * k + 2) = v.extractLsb' 16 8 ∧ t.payByte (4 * k + 3) = v.extractLsb' 24 8 ∧
      (∀ i, i < 4 * k ∨ 4 * k + 4 ≤ i → t.payByte i = s.payByte i) ∧
      { t with payload := s.payload } = s ∧
      exec (.rd off) t = .next { t with rdata := v }

/-- R40, R42, R103: the same for a DIGEST word. -/
def Obligations.WriteDigestWordSetsFourBytes : Prop :=
  ∀ (s : State) (off v : Word) (k : Nat), s.busy = false → k < 8 → off.toNat = 0x040 + 4 * k →
    ∃ t, exec (.wr off v) s = .next t ∧
      digByte t.digest (4 * k) = v.extractLsb' 0 8 ∧ digByte t.digest (4 * k + 1) = v.extractLsb' 8 8 ∧
      digByte t.digest (4 * k + 2) = v.extractLsb' 16 8 ∧ digByte t.digest (4 * k + 3) = v.extractLsb' 24 8 ∧
      (∀ i, i < 4 * k ∨ 4 * k + 4 ≤ i → digByte t.digest i = digByte s.digest i) ∧
      { t with digest := s.digest } = s ∧
      exec (.rd off) t = .next { t with rdata := v }

/-- R48: repeating a read changes nothing more, nor does repeating a write other than to CTRL. -/
def Obligations.RepeatedTransactionChangesNothing : Prop :=
  ∀ (s t : State) (off v : Word), s.Inv →
    (exec (.rd off) s = .next t → exec (.rd off) t = .next t) ∧
    (off ≠ 0x000#32 → exec (.wr off v) s = .next t → exec (.wr off v) t = .next t)

/-- R20, R21: every bit of STATUS, and that a write to it is dropped. -/
def Obligations.StatusWordFields : Prop :=
  ∀ s : State,
    (s.statusWord.extractLsb' 0 3).toNat =
      (match s.ctrl with | .idle => 0 | .issue => 1 | .wait => 2 | .test => 3 | .found => 4 | .exhausted => 5) ∧
    (s.statusWord.getLsbD 3 = true ↔ s.ctrl = .issue ∨ s.ctrl = .wait ∨ s.ctrl = .test) ∧
    (s.statusWord.getLsbD 4 = true ↔ s.ctrl = .found ∨ s.ctrl = .exhausted) ∧
    (s.statusWord.getLsbD 5 = true ↔ s.ctrl = .found) ∧
    (s.statusWord.getLsbD 6 = true ↔ s.ctrl = .exhausted) ∧
    s.statusWord.getLsbD 7 = s.pass ∧
    s.statusWord.getLsbD 8 = s.errCmd ∧
    s.statusWord.getLsbD 9 = s.errBusy ∧
    s.statusWord.getLsbD 10 = s.errParam ∧
    s.statusWord.getLsbD 11 = s.errAccess ∧
    s.statusWord.extractLsb' 12 20 = 0#20 ∧
    ∀ v, exec (.wr 0x004#32 v) s = .next { s with errAccess := true }

/-! ## The internal steps -/

/-- R81: the ISSUE step. -/
def Obligations.IssueStepSendsTheMessage : Prop :=
  ∀ s : State, nextAgent s = .ctrl → s.ctrl = .issue →
    step s = .next
      { advance s with
        req := some ((List.range s.plen.toNat).map s.payByte ++ le64 s.counter)
        ctrl := .wait }

/-- R83: the SHA response step, which exists exactly while a request is pending. -/
def Obligations.ResponseStepWritesTheDigest : Prop :=
  ∀ s : State, nextAgent s = .sha →
    (∀ m, s.req = some m → step s = .next { advance s with digest := sha256 m, req := none, ctrl := .test }) ∧
    (s.req = none → step s = .next (advance s))

/-- R85: the TEST step, with its three ends. -/
def Obligations.TestStepStopsOrCountsOn : Prop :=
  ∀ s : State, nextAgent s = .ctrl → s.ctrl = .test →
    (pred s.digest s.difficulty = true →
      step s = .next { advance s with pass := true, result := s.counter, ctrl := .found }) ∧
    (pred s.digest s.difficulty = false → s.counter.toNat = 2 ^ 64 - 1 →
      step s = .next { advance s with pass := false, counter := 0, ctrl := .exhausted }) ∧
    (pred s.digest s.difficulty = false → s.counter.toNat < 2 ^ 64 - 1 →
      step s = .next { advance s with pass := false, counter := s.counter + 1, ctrl := .issue })

/-! ## Rules of the whole machine -/

/-- The invariant of R37 holds after reset, whatever the capacity. -/
def Obligations.InvariantHoldsAtReset : Prop :=
  State.reset.Inv ∧ ∀ cap, capacityLegal cap = true → (State.resetWith cap).Inv

/-- R37: every step of every agent keeps the invariant, from every state that meets it. -/
def Obligations.EveryStepKeepsTheInvariant : Prop :=
  ∀ s t : State, s.Inv → step s = .next t → t.Inv

/-- R28: P_MAXPAY never changes, a read of MAXPAY returns it, and a write is dropped and raises ERR_ACCESS. -/
def Obligations.MaxpayNeverChanges : Prop :=
  ∀ s : State,
    (∀ t, step s = .next t → t.maxPay = s.maxPay) ∧
    exec (.rd 0x020#32) s = .next { s with rdata := s.maxPay } ∧
    ∀ v, exec (.wr 0x020#32 v) s = .next { s with errAccess := true }

/-- R54, R92, R127: while BUSY no command and no transaction changes anything of the block but the error bits. -/
def Obligations.HostCannotDisturbASearch : Prop :=
  ∀ (s t : State) (i : Instr), s.busy = true → exec i s = .next t →
    SameBlock s t ∧ t.hostOps = s.hostOps ∧ t.schedule = s.schedule ∧ t.draws = s.draws

/-- R109, R110, R111: one instruction raises at most one error bit; CLEAR alone clears, and it clears all four. -/
def Obligations.AtMostOneErrorIsRaised : Prop :=
  ∀ (s t : State) (i : Instr), exec i s = .next t →
    SameErrors s t ∨
    (∃ e, SameErrors (s.raise e) t ∧ SameBlock s t) ∨
    ((i = .clear ∨ i = .wr 0x000#32 0x00000003#32) ∧ t.errorCount = 0)

/-- R23, R98, R122: an error bit that is 1 stays 1 in every step but a CLEAR of the host and a reset. -/
def Obligations.ErrorBitsAreSticky : Prop :=
  ∀ s t : State, step s = .next t →
    nextAgent s ≠ .platform →
    (nextAgent s = .host → ∀ x rest, s.hostOps = .tx x :: rest → decodeBustx x ≠ .wr 0x000#32 0x00000003#32) →
    (s.errCmd = true → t.errCmd = true) ∧ (s.errBusy = true → t.errBusy = true) ∧
    (s.errParam = true → t.errParam = true) ∧ (s.errAccess = true → t.errAccess = true)

/-- R16, R26, R86: COUNTER only ever moves by one, modulo 2^64, in a TEST step, or to 0, by the host's SEARCH or by reset. -/
def Obligations.CounterMovesByOneOrToZero : Prop :=
  ∀ s t : State, step s = .next t → t.counter ≠ s.counter →
    (nextAgent s = .ctrl ∧ s.ctrl = .test ∧ t.counter.toNat = (s.counter.toNat + 1) % 2 ^ 64) ∨
    (nextAgent s = .host ∧ s.busy = false ∧ t.ctrl = .issue ∧ t.counter = 0 ∧
      ∃ x rest, s.hostOps = .tx x :: rest ∧ decodeBustx x = .wr 0x000#32 0x00000002#32) ∨
    (nextAgent s = .platform ∧ t.counter = 0)

/-- R22: PASS changes only in the host's CHECK and in TEST, to the predicate's result, in the host's accepted SEARCH, to 0,
and in reset, to 0. -/
def Obligations.PassHasFourWriters : Prop :=
  ∀ s t : State, step s = .next t → t.pass ≠ s.pass →
    (nextAgent s = .host ∧ s.busy = false ∧ t.ctrl = s.ctrl ∧ t.pass = pred s.digest s.difficulty ∧
      ∃ x rest, s.hostOps = .tx x :: rest ∧ decodeBustx x = .wr 0x000#32 0x00000001#32) ∨
    (nextAgent s = .ctrl ∧ s.ctrl = .test ∧ t.pass = pred s.digest s.difficulty) ∨
    (nextAgent s = .host ∧ s.busy = false ∧ t.ctrl = .issue ∧ t.pass = false ∧
      ∃ x rest, s.hostOps = .tx x :: rest ∧ decodeBustx x = .wr 0x000#32 0x00000002#32) ∨
    (nextAgent s = .platform ∧ t.pass = false)

/-- R113: `irq` is STATUS.DONE; it rises only in a TEST step that ends the search, and falls only in an accepted SEARCH, in
CLEAR and in reset. -/
def Obligations.IrqIsDone : Prop :=
  (∀ s : State, s.irq = s.statusWord.getLsbD 4) ∧
  ∀ s t : State, s.Inv → step s = .next t →
    (s.irq = false → t.irq = true →
      nextAgent s = .ctrl ∧ s.ctrl = .test ∧ (t.ctrl = .found ∨ t.ctrl = .exhausted)) ∧
    (s.irq = true → t.irq = false →
      (nextAgent s = .host ∧ ∃ x rest, s.hostOps = .tx x :: rest ∧
        (decodeBustx x = .wr 0x000#32 0x00000002#32 ∧ t.ctrl = .issue ∨
          decodeBustx x = .wr 0x000#32 0x00000003#32 ∧ t.ctrl = .idle)) ∨
      nextAgent s = .platform)

/-- R93, R120: in IDLE, FOUND and EXHAUSTED no step of the block is enabled, and only the host's SEARCH makes it BUSY. -/
def Obligations.QuiescentUntilCommanded : Prop :=
  ∀ s t : State, s.Inv → s.busy = false → step s = .next t →
    (nextAgent s = .ctrl ∨ nextAgent s = .sha → t = advance s) ∧
    (t.busy = true →
      nextAgent s = .host ∧ ∃ x rest, s.hostOps = .tx x :: rest ∧ decodeBustx x = .wr 0x000#32 0x00000002#32)

/-! ## The search -/

/-- R78, R79: an accepted SEARCH puts the block on the search for the payload and the difficulty it holds. -/
def Obligations.AcceptedSearchIsSearching : Prop :=
  ∀ s : State, s.Inv → s.busy = false → s.plen.toNat ≤ s.maxPay.toNat →
    ∃ t, exec .search s = .next t ∧ t.Searching s.payBytes s.difficulty ∧ t.ctrl = .issue ∧ t.counter = 0

/-- R89, R93, R96: whatever the agents do and in whatever order, short of reset, the search that runs either goes on, with
its inputs as they were and every smaller counter failed, or ends with the least solution, or with none where there is none. -/
def Obligations.SearchEndsWithTheLeastSolution : Prop :=
  ∀ (p : List Byte) (n : Word) (k : Nat) (s t : State),
    s.Searching p n →
    (∀ j u, j < k → Sys2Proof.core.run j s = .next u → State.busy u = true ∧ nextAgent u ≠ .platform) →
    Sys2Proof.core.run k s = .next t →
    (State.busy t = true ∧ State.Searching t p n) ∨ (State.done t = true ∧ State.Ends t p n)

/-- R90: two runs of a search for one payload and one difficulty, whatever the order of their steps and whatever the host
does meanwhile, end with the same STATE, RESULT, COUNTER, DIGEST and PASS. -/
def Obligations.SearchEndIsDetermined : Prop :=
  ∀ (p : List Byte) (n : Word) (k k' : Nat) (s t s' t' : State),
    s.Searching p n → s'.Searching p n → s.RunEnds k t → s'.RunEnds k' t' →
    t.ctrl = t'.ctrl ∧ t.result = t'.result ∧ t.counter = t'.counter ∧ t.digest = t'.digest ∧ t.pass = t'.pass

/-- R94, R95: a step of the agent the search waits for takes it exactly one step on; no other step but reset moves it. -/
def Obligations.SearchAdvancesStepByStep : Prop :=
  ∀ s t : State, s.Inv → s.busy = true → step s = .next t →
    (nextAgent s = .ctrl ∧ s.ctrl ≠ .wait ∨ nextAgent s = .sha ∧ s.ctrl = .wait → t.progress = s.progress + 1) ∧
    (nextAgent s = .host ∨ nextAgent s = .ctrl ∧ s.ctrl = .wait ∨ nextAgent s = .sha ∧ s.ctrl ≠ .wait →
      SameBlock s t)

/-- R89, R94: with least solution `c`, the search ends in FOUND with RESULT = `c` after `c + 1` rounds of ISSUE, response and
TEST. -/
def Obligations.SearchFindsAfterItsRounds : Prop :=
  ∀ (p : List Byte) (n : Word) (c : Count) (s : State) (rest : List Agent),
    s.Searching p n → s.ctrl = .issue → s.counter = 0 → IsSolution p n c →
    s.schedule = (List.replicate (c.toNat + 1) searchRound).flatten ++ rest →
    ∃ t, Sys2Proof.core.run (3 * (c.toNat + 1)) s = .next t ∧ State.EndsFound t p n ∧ State.result t = c

/-- R87, R89, R94: with no solution, the search ends in EXHAUSTED after one round for each counter from COUNTER to
`2^64 - 1`, which is `2^64` rounds from the search's start. -/
def Obligations.SearchExhaustsAfterAllRounds : Prop :=
  ∀ (p : List Byte) (n : Word) (s : State) (rest : List Agent),
    s.Searching p n → s.ctrl = .issue → (∀ c, solves p n c = false) →
    s.schedule = (List.replicate (2 ^ 64 - s.counter.toNat) searchRound).flatten ++ rest →
    ∃ t, Sys2Proof.core.run (3 * (2 ^ 64 - s.counter.toNat)) s = .next t ∧ State.EndsExhausted t p n

/-- R91: difficulty 0, from the host's `CMD SEARCH` on: four steps end in FOUND with RESULT 0, for every payload. -/
def Obligations.DifficultyZeroFindsCounterZero : Prop :=
  ∀ (s : State) (ops : List HostOp) (rest : List Agent),
    s.busy = false → s.plen.toNat ≤ s.maxPay.toNat → s.difficulty = 0 →
    s.hostOps = .tx (wrTx 0x000#32 0x00000002#32) :: ops →
    s.schedule = .host :: searchRound ++ rest →
    ∃ t, Sys2Proof.core.run 4 s = .next t ∧ State.ctrl t = .found ∧ State.result t = 0 ∧ State.pass t = true ∧
      State.hostOps t = ops

/-- R88: a search with difficulty 257 or more never ends in FOUND: it goes on, or it is exhausted. -/
def Obligations.UnsatisfiableDifficultyNeverFinds : Prop :=
  ∀ s t : State, s.Inv → s.busy = true → 257 ≤ s.difficulty.toNat → nextAgent s ≠ .platform → step s = .next t →
    t.difficulty = s.difficulty ∧ (t.busy = true ∨ t.ctrl = .exhausted ∧ s.counter.toNat = 2 ^ 64 - 1)

/-- R47, R128: the two halves of COUNTER may be read torn: around a TEST step at 0xFFFFFFFF the host reads LO of one counter
and HI of the next. -/
def Obligations.CounterReadMayTear : Prop :=
  ∀ s : State, s.ctrl = .test → s.counter = 0xFFFFFFFF#64 → pred s.digest s.difficulty = false →
    ∃ t u, exec (.rd 0x010#32) s = .next t ∧ exec (.rd 0x014#32) (ctrlStep t) = .next u ∧
      t.rdata = 0xFFFFFFFF#32 ∧ u.rdata = 0x00000001#32 ∧ u.counter = 0x100000000#64
end

