-- ==== Sys2Proof/Laws/Decode.lean ====
section
/-! SUPPORT. The decoders on numbers: the command decoder as a table, bytes and back, and the fields of a record. -/

namespace Sys2Proof

theorem extract_high_eq_zero_iff (w : Word) : w.extractLsb' 4 28 = 0#28 ↔ w.toNat < 16 := by
  rw [← BitVec.toNat_inj, BitVec.extractLsb'_toNat, Nat.shiftRight_eq_div_pow]
  have := w.isLt
  simp only [BitVec.toNat_ofNat]
  omega

theorem extract_low_toNat (w : Word) : (w.extractLsb' 0 4).toNat = w.toNat % 16 := by
  rw [BitVec.extractLsb'_toNat]; rfl

/-- The decoder as R59's table (R66). -/
theorem decodeCmd_eq (w : Word) :
    decodeCmd w =
      if w.toNat = 0 then .nop else if w.toNat = 1 then .check else if w.toNat = 2 then .search
      else if w.toNat = 3 then .clear else .illegal := by
  have hlo := extract_low_toNat w
  unfold decodeCmd
  have hhi := extract_high_eq_zero_iff w
  by_cases h : w.toNat < 16
  · rw [if_neg (not_not.mpr (hhi.mpr h))]
    simp only [← BitVec.toNat_inj, hlo, BitVec.toNat_ofNat]
    split_ifs <;> first | rfl | omega
  · rw [if_pos (fun e => h (hhi.mp e))]
    split_ifs <;> first | rfl | omega

theorem decodeCmd_check {w : Word} (h : decodeCmd w = .check) : w = 0x00000001#32 := by
  rw [decodeCmd_eq] at h
  split_ifs at h with h0 h1
  exact BitVec.eq_of_toNat_eq h1

theorem decodeCmd_search {w : Word} (h : decodeCmd w = .search) : w = 0x00000002#32 := by
  rw [decodeCmd_eq] at h
  split_ifs at h with h0 h1 h2
  exact BitVec.eq_of_toNat_eq h2

theorem decodeCmd_clear {w : Word} (h : decodeCmd w = .clear) : w = 0x00000003#32 := by
  rw [decodeCmd_eq] at h
  split_ifs at h with h0 h1 h2 h3
  exact BitVec.eq_of_toNat_eq h3

theorem leBytes_length (n v : Nat) : (leBytes n v).length = n := by
  induction n generalizing v with
  | zero => rfl
  | succ n ih => simp [leBytes, ih]

/-- Bytes and back. -/
theorem leNat_leBytes (n v : Nat) : leNat (leBytes n v) = v % 256 ^ n := by
  induction n generalizing v with
  | zero => simp [leBytes, leNat, Nat.mod_one]
  | succ n ih =>
    rw [leBytes, leNat, ih, BitVec.toNat_ofNat, pow_succ' 256 n, Nat.mod_mul]

/-- The decoder on four bytes. -/
theorem decode_cmdBytes {w : Nat} (h : w < 2 ^ 32) :
    decode (leBytes 4 w) = (decodeCmd (BitVec.ofNat 32 w)).toInstr := by
  unfold decode
  rw [leBytes_length, if_pos rfl, leNat_leBytes, Nat.mod_eq_of_lt (by omega)]

/-- The decoder on nine bytes. -/
theorem decode_recordBytes {w : Nat} (h : w < 256 ^ 9) :
    decode (leBytes 9 w) =
      if w < 2 ^ 65 then .ok (decodeBustx (BitVec.ofNat 65 w)) else .error .notATransaction := by
  unfold decode
  rw [leBytes_length, if_neg (by norm_num), if_pos rfl, leNat_leBytes, Nat.mod_eq_of_lt h]
  unfold recordLegal
  simp only [decide_eq_true_eq]

theorem rdTx_bit64 (off : Word) : (rdTx off).getLsbD 64 = false := by
  rw [rdTx, BitVec.getLsbD_append, BitVec.getLsbD_append]; rfl

theorem wrTx_bit64 (off v : Word) : (wrTx off v).getLsbD 64 = true := by
  rw [wrTx, BitVec.getLsbD_append, BitVec.getLsbD_append]; rfl

/-- Bits 63..32 of a record. -/
theorem record_off (b : BitVec 1) (off v : Word) : (b ++ off ++ v : BusTx).extractLsb' 32 32 = off := by
  apply BitVec.eq_of_getLsbD_eq
  intro i hi
  rw [BitVec.getLsbD_extractLsb', BitVec.getLsbD_append, BitVec.getLsbD_append]
  simp [hi]

/-- Bits 31..0 of a record. -/
theorem record_wdata (b : BitVec 1) (off v : Word) : (b ++ off ++ v : BusTx).extractLsb' 0 32 = v := by
  apply BitVec.eq_of_getLsbD_eq
  intro i hi
  rw [BitVec.getLsbD_extractLsb', BitVec.getLsbD_append]
  simp [hi]

@[simp] theorem decodeBustx_rdTx (off : Word) : decodeBustx (rdTx off) = .rd off := by
  unfold decodeBustx
  rw [rdTx_bit64, if_neg Bool.false_ne_true, rdTx, record_off]

@[simp] theorem decodeBustx_wrTx (off v : Word) : decodeBustx (wrTx off v) = .wr off v := by
  unfold decodeBustx
  rw [wrTx_bit64, if_pos rfl, wrTx, record_off, record_wdata]

end Sys2Proof
end

