-- ==== Sys2Proof/Laws/State.lean ====
section
/-! SUPPORT. Each named update on each field of the state, by rfl. -/

namespace Sys2Proof.Machine

@[simp] theorem State.setCtrl_ctrl (s : State) (c : CtrlState) : (s.setCtrl c).ctrl = c := rfl
@[simp] theorem State.setCtrl_pass (s : State) (c : CtrlState) : (s.setCtrl c).pass = s.pass := rfl
@[simp] theorem State.setCtrl_errCmd (s : State) (c : CtrlState) : (s.setCtrl c).errCmd = s.errCmd := rfl
@[simp] theorem State.setCtrl_errBusy (s : State) (c : CtrlState) : (s.setCtrl c).errBusy = s.errBusy := rfl
@[simp] theorem State.setCtrl_errParam (s : State) (c : CtrlState) : (s.setCtrl c).errParam = s.errParam := rfl
@[simp] theorem State.setCtrl_errAccess (s : State) (c : CtrlState) : (s.setCtrl c).errAccess = s.errAccess := rfl
@[simp] theorem State.setCtrl_difficulty (s : State) (c : CtrlState) : (s.setCtrl c).difficulty = s.difficulty := rfl
@[simp] theorem State.setCtrl_plen (s : State) (c : CtrlState) : (s.setCtrl c).plen = s.plen := rfl
@[simp] theorem State.setCtrl_counter (s : State) (c : CtrlState) : (s.setCtrl c).counter = s.counter := rfl
@[simp] theorem State.setCtrl_result (s : State) (c : CtrlState) : (s.setCtrl c).result = s.result := rfl
@[simp] theorem State.setCtrl_maxPay (s : State) (c : CtrlState) : (s.setCtrl c).maxPay = s.maxPay := rfl
@[simp] theorem State.setCtrl_digest (s : State) (c : CtrlState) : (s.setCtrl c).digest = s.digest := rfl
@[simp] theorem State.setCtrl_payload (s : State) (c : CtrlState) : (s.setCtrl c).payload = s.payload := rfl
@[simp] theorem State.setCtrl_req (s : State) (c : CtrlState) : (s.setCtrl c).req = s.req := rfl
@[simp] theorem State.setCtrl_rdata (s : State) (c : CtrlState) : (s.setCtrl c).rdata = s.rdata := rfl
@[simp] theorem State.setCtrl_hostOps (s : State) (c : CtrlState) : (s.setCtrl c).hostOps = s.hostOps := rfl
@[simp] theorem State.setCtrl_schedule (s : State) (c : CtrlState) : (s.setCtrl c).schedule = s.schedule := rfl
@[simp] theorem State.setCtrl_draws (s : State) (c : CtrlState) : (s.setCtrl c).draws = s.draws := rfl

@[simp] theorem State.setPass_ctrl (s : State) (b : Bool) : (s.setPass b).ctrl = s.ctrl := rfl
@[simp] theorem State.setPass_pass (s : State) (b : Bool) : (s.setPass b).pass = b := rfl
@[simp] theorem State.setPass_errCmd (s : State) (b : Bool) : (s.setPass b).errCmd = s.errCmd := rfl
@[simp] theorem State.setPass_errBusy (s : State) (b : Bool) : (s.setPass b).errBusy = s.errBusy := rfl
@[simp] theorem State.setPass_errParam (s : State) (b : Bool) : (s.setPass b).errParam = s.errParam := rfl
@[simp] theorem State.setPass_errAccess (s : State) (b : Bool) : (s.setPass b).errAccess = s.errAccess := rfl
@[simp] theorem State.setPass_difficulty (s : State) (b : Bool) : (s.setPass b).difficulty = s.difficulty := rfl
@[simp] theorem State.setPass_plen (s : State) (b : Bool) : (s.setPass b).plen = s.plen := rfl
@[simp] theorem State.setPass_counter (s : State) (b : Bool) : (s.setPass b).counter = s.counter := rfl
@[simp] theorem State.setPass_result (s : State) (b : Bool) : (s.setPass b).result = s.result := rfl
@[simp] theorem State.setPass_maxPay (s : State) (b : Bool) : (s.setPass b).maxPay = s.maxPay := rfl
@[simp] theorem State.setPass_digest (s : State) (b : Bool) : (s.setPass b).digest = s.digest := rfl
@[simp] theorem State.setPass_payload (s : State) (b : Bool) : (s.setPass b).payload = s.payload := rfl
@[simp] theorem State.setPass_req (s : State) (b : Bool) : (s.setPass b).req = s.req := rfl
@[simp] theorem State.setPass_rdata (s : State) (b : Bool) : (s.setPass b).rdata = s.rdata := rfl
@[simp] theorem State.setPass_hostOps (s : State) (b : Bool) : (s.setPass b).hostOps = s.hostOps := rfl
@[simp] theorem State.setPass_schedule (s : State) (b : Bool) : (s.setPass b).schedule = s.schedule := rfl
@[simp] theorem State.setPass_draws (s : State) (b : Bool) : (s.setPass b).draws = s.draws := rfl

@[simp] theorem State.setDifficulty_ctrl (s : State) (v : Word) : (s.setDifficulty v).ctrl = s.ctrl := rfl
@[simp] theorem State.setDifficulty_pass (s : State) (v : Word) : (s.setDifficulty v).pass = s.pass := rfl
@[simp] theorem State.setDifficulty_errCmd (s : State) (v : Word) : (s.setDifficulty v).errCmd = s.errCmd := rfl
@[simp] theorem State.setDifficulty_errBusy (s : State) (v : Word) : (s.setDifficulty v).errBusy = s.errBusy := rfl
@[simp] theorem State.setDifficulty_errParam (s : State) (v : Word) : (s.setDifficulty v).errParam = s.errParam := rfl
@[simp] theorem State.setDifficulty_errAccess (s : State) (v : Word) : (s.setDifficulty v).errAccess = s.errAccess := rfl
@[simp] theorem State.setDifficulty_difficulty (s : State) (v : Word) : (s.setDifficulty v).difficulty = v := rfl
@[simp] theorem State.setDifficulty_plen (s : State) (v : Word) : (s.setDifficulty v).plen = s.plen := rfl
@[simp] theorem State.setDifficulty_counter (s : State) (v : Word) : (s.setDifficulty v).counter = s.counter := rfl
@[simp] theorem State.setDifficulty_result (s : State) (v : Word) : (s.setDifficulty v).result = s.result := rfl
@[simp] theorem State.setDifficulty_maxPay (s : State) (v : Word) : (s.setDifficulty v).maxPay = s.maxPay := rfl
@[simp] theorem State.setDifficulty_digest (s : State) (v : Word) : (s.setDifficulty v).digest = s.digest := rfl
@[simp] theorem State.setDifficulty_payload (s : State) (v : Word) : (s.setDifficulty v).payload = s.payload := rfl
@[simp] theorem State.setDifficulty_req (s : State) (v : Word) : (s.setDifficulty v).req = s.req := rfl
@[simp] theorem State.setDifficulty_rdata (s : State) (v : Word) : (s.setDifficulty v).rdata = s.rdata := rfl
@[simp] theorem State.setDifficulty_hostOps (s : State) (v : Word) : (s.setDifficulty v).hostOps = s.hostOps := rfl
@[simp] theorem State.setDifficulty_schedule (s : State) (v : Word) : (s.setDifficulty v).schedule = s.schedule := rfl
@[simp] theorem State.setDifficulty_draws (s : State) (v : Word) : (s.setDifficulty v).draws = s.draws := rfl

@[simp] theorem State.setPlen_ctrl (s : State) (v : Word) : (s.setPlen v).ctrl = s.ctrl := rfl
@[simp] theorem State.setPlen_pass (s : State) (v : Word) : (s.setPlen v).pass = s.pass := rfl
@[simp] theorem State.setPlen_errCmd (s : State) (v : Word) : (s.setPlen v).errCmd = s.errCmd := rfl
@[simp] theorem State.setPlen_errBusy (s : State) (v : Word) : (s.setPlen v).errBusy = s.errBusy := rfl
@[simp] theorem State.setPlen_errParam (s : State) (v : Word) : (s.setPlen v).errParam = s.errParam := rfl
@[simp] theorem State.setPlen_errAccess (s : State) (v : Word) : (s.setPlen v).errAccess = s.errAccess := rfl
@[simp] theorem State.setPlen_difficulty (s : State) (v : Word) : (s.setPlen v).difficulty = s.difficulty := rfl
@[simp] theorem State.setPlen_plen (s : State) (v : Word) : (s.setPlen v).plen = v := rfl
@[simp] theorem State.setPlen_counter (s : State) (v : Word) : (s.setPlen v).counter = s.counter := rfl
@[simp] theorem State.setPlen_result (s : State) (v : Word) : (s.setPlen v).result = s.result := rfl
@[simp] theorem State.setPlen_maxPay (s : State) (v : Word) : (s.setPlen v).maxPay = s.maxPay := rfl
@[simp] theorem State.setPlen_digest (s : State) (v : Word) : (s.setPlen v).digest = s.digest := rfl
@[simp] theorem State.setPlen_payload (s : State) (v : Word) : (s.setPlen v).payload = s.payload := rfl
@[simp] theorem State.setPlen_req (s : State) (v : Word) : (s.setPlen v).req = s.req := rfl
@[simp] theorem State.setPlen_rdata (s : State) (v : Word) : (s.setPlen v).rdata = s.rdata := rfl
@[simp] theorem State.setPlen_hostOps (s : State) (v : Word) : (s.setPlen v).hostOps = s.hostOps := rfl
@[simp] theorem State.setPlen_schedule (s : State) (v : Word) : (s.setPlen v).schedule = s.schedule := rfl
@[simp] theorem State.setPlen_draws (s : State) (v : Word) : (s.setPlen v).draws = s.draws := rfl

@[simp] theorem State.setCounter_ctrl (s : State) (c : Count) : (s.setCounter c).ctrl = s.ctrl := rfl
@[simp] theorem State.setCounter_pass (s : State) (c : Count) : (s.setCounter c).pass = s.pass := rfl
@[simp] theorem State.setCounter_errCmd (s : State) (c : Count) : (s.setCounter c).errCmd = s.errCmd := rfl
@[simp] theorem State.setCounter_errBusy (s : State) (c : Count) : (s.setCounter c).errBusy = s.errBusy := rfl
@[simp] theorem State.setCounter_errParam (s : State) (c : Count) : (s.setCounter c).errParam = s.errParam := rfl
@[simp] theorem State.setCounter_errAccess (s : State) (c : Count) : (s.setCounter c).errAccess = s.errAccess := rfl
@[simp] theorem State.setCounter_difficulty (s : State) (c : Count) : (s.setCounter c).difficulty = s.difficulty := rfl
@[simp] theorem State.setCounter_plen (s : State) (c : Count) : (s.setCounter c).plen = s.plen := rfl
@[simp] theorem State.setCounter_counter (s : State) (c : Count) : (s.setCounter c).counter = c := rfl
@[simp] theorem State.setCounter_result (s : State) (c : Count) : (s.setCounter c).result = s.result := rfl
@[simp] theorem State.setCounter_maxPay (s : State) (c : Count) : (s.setCounter c).maxPay = s.maxPay := rfl
@[simp] theorem State.setCounter_digest (s : State) (c : Count) : (s.setCounter c).digest = s.digest := rfl
@[simp] theorem State.setCounter_payload (s : State) (c : Count) : (s.setCounter c).payload = s.payload := rfl
@[simp] theorem State.setCounter_req (s : State) (c : Count) : (s.setCounter c).req = s.req := rfl
@[simp] theorem State.setCounter_rdata (s : State) (c : Count) : (s.setCounter c).rdata = s.rdata := rfl
@[simp] theorem State.setCounter_hostOps (s : State) (c : Count) : (s.setCounter c).hostOps = s.hostOps := rfl
@[simp] theorem State.setCounter_schedule (s : State) (c : Count) : (s.setCounter c).schedule = s.schedule := rfl
@[simp] theorem State.setCounter_draws (s : State) (c : Count) : (s.setCounter c).draws = s.draws := rfl

@[simp] theorem State.setResult_ctrl (s : State) (c : Count) : (s.setResult c).ctrl = s.ctrl := rfl
@[simp] theorem State.setResult_pass (s : State) (c : Count) : (s.setResult c).pass = s.pass := rfl
@[simp] theorem State.setResult_errCmd (s : State) (c : Count) : (s.setResult c).errCmd = s.errCmd := rfl
@[simp] theorem State.setResult_errBusy (s : State) (c : Count) : (s.setResult c).errBusy = s.errBusy := rfl
@[simp] theorem State.setResult_errParam (s : State) (c : Count) : (s.setResult c).errParam = s.errParam := rfl
@[simp] theorem State.setResult_errAccess (s : State) (c : Count) : (s.setResult c).errAccess = s.errAccess := rfl
@[simp] theorem State.setResult_difficulty (s : State) (c : Count) : (s.setResult c).difficulty = s.difficulty := rfl
@[simp] theorem State.setResult_plen (s : State) (c : Count) : (s.setResult c).plen = s.plen := rfl
@[simp] theorem State.setResult_counter (s : State) (c : Count) : (s.setResult c).counter = s.counter := rfl
@[simp] theorem State.setResult_result (s : State) (c : Count) : (s.setResult c).result = c := rfl
@[simp] theorem State.setResult_maxPay (s : State) (c : Count) : (s.setResult c).maxPay = s.maxPay := rfl
@[simp] theorem State.setResult_digest (s : State) (c : Count) : (s.setResult c).digest = s.digest := rfl
@[simp] theorem State.setResult_payload (s : State) (c : Count) : (s.setResult c).payload = s.payload := rfl
@[simp] theorem State.setResult_req (s : State) (c : Count) : (s.setResult c).req = s.req := rfl
@[simp] theorem State.setResult_rdata (s : State) (c : Count) : (s.setResult c).rdata = s.rdata := rfl
@[simp] theorem State.setResult_hostOps (s : State) (c : Count) : (s.setResult c).hostOps = s.hostOps := rfl
@[simp] theorem State.setResult_schedule (s : State) (c : Count) : (s.setResult c).schedule = s.schedule := rfl
@[simp] theorem State.setResult_draws (s : State) (c : Count) : (s.setResult c).draws = s.draws := rfl

@[simp] theorem State.setDigest_ctrl (s : State) (d : Digest) : (s.setDigest d).ctrl = s.ctrl := rfl
@[simp] theorem State.setDigest_pass (s : State) (d : Digest) : (s.setDigest d).pass = s.pass := rfl
@[simp] theorem State.setDigest_errCmd (s : State) (d : Digest) : (s.setDigest d).errCmd = s.errCmd := rfl
@[simp] theorem State.setDigest_errBusy (s : State) (d : Digest) : (s.setDigest d).errBusy = s.errBusy := rfl
@[simp] theorem State.setDigest_errParam (s : State) (d : Digest) : (s.setDigest d).errParam = s.errParam := rfl
@[simp] theorem State.setDigest_errAccess (s : State) (d : Digest) : (s.setDigest d).errAccess = s.errAccess := rfl
@[simp] theorem State.setDigest_difficulty (s : State) (d : Digest) : (s.setDigest d).difficulty = s.difficulty := rfl
@[simp] theorem State.setDigest_plen (s : State) (d : Digest) : (s.setDigest d).plen = s.plen := rfl
@[simp] theorem State.setDigest_counter (s : State) (d : Digest) : (s.setDigest d).counter = s.counter := rfl
@[simp] theorem State.setDigest_result (s : State) (d : Digest) : (s.setDigest d).result = s.result := rfl
@[simp] theorem State.setDigest_maxPay (s : State) (d : Digest) : (s.setDigest d).maxPay = s.maxPay := rfl
@[simp] theorem State.setDigest_digest (s : State) (d : Digest) : (s.setDigest d).digest = d := rfl
@[simp] theorem State.setDigest_payload (s : State) (d : Digest) : (s.setDigest d).payload = s.payload := rfl
@[simp] theorem State.setDigest_req (s : State) (d : Digest) : (s.setDigest d).req = s.req := rfl
@[simp] theorem State.setDigest_rdata (s : State) (d : Digest) : (s.setDigest d).rdata = s.rdata := rfl
@[simp] theorem State.setDigest_hostOps (s : State) (d : Digest) : (s.setDigest d).hostOps = s.hostOps := rfl
@[simp] theorem State.setDigest_schedule (s : State) (d : Digest) : (s.setDigest d).schedule = s.schedule := rfl
@[simp] theorem State.setDigest_draws (s : State) (d : Digest) : (s.setDigest d).draws = s.draws := rfl

@[simp] theorem State.setPayload_ctrl (s : State) (m : List Host.Cell) : (s.setPayload m).ctrl = s.ctrl := rfl
@[simp] theorem State.setPayload_pass (s : State) (m : List Host.Cell) : (s.setPayload m).pass = s.pass := rfl
@[simp] theorem State.setPayload_errCmd (s : State) (m : List Host.Cell) : (s.setPayload m).errCmd = s.errCmd := rfl
@[simp] theorem State.setPayload_errBusy (s : State) (m : List Host.Cell) : (s.setPayload m).errBusy = s.errBusy := rfl
@[simp] theorem State.setPayload_errParam (s : State) (m : List Host.Cell) : (s.setPayload m).errParam = s.errParam := rfl
@[simp] theorem State.setPayload_errAccess (s : State) (m : List Host.Cell) : (s.setPayload m).errAccess = s.errAccess := rfl
@[simp] theorem State.setPayload_difficulty (s : State) (m : List Host.Cell) : (s.setPayload m).difficulty = s.difficulty := rfl
@[simp] theorem State.setPayload_plen (s : State) (m : List Host.Cell) : (s.setPayload m).plen = s.plen := rfl
@[simp] theorem State.setPayload_counter (s : State) (m : List Host.Cell) : (s.setPayload m).counter = s.counter := rfl
@[simp] theorem State.setPayload_result (s : State) (m : List Host.Cell) : (s.setPayload m).result = s.result := rfl
@[simp] theorem State.setPayload_maxPay (s : State) (m : List Host.Cell) : (s.setPayload m).maxPay = s.maxPay := rfl
@[simp] theorem State.setPayload_digest (s : State) (m : List Host.Cell) : (s.setPayload m).digest = s.digest := rfl
@[simp] theorem State.setPayload_payload (s : State) (m : List Host.Cell) : (s.setPayload m).payload = m := rfl
@[simp] theorem State.setPayload_req (s : State) (m : List Host.Cell) : (s.setPayload m).req = s.req := rfl
@[simp] theorem State.setPayload_rdata (s : State) (m : List Host.Cell) : (s.setPayload m).rdata = s.rdata := rfl
@[simp] theorem State.setPayload_hostOps (s : State) (m : List Host.Cell) : (s.setPayload m).hostOps = s.hostOps := rfl
@[simp] theorem State.setPayload_schedule (s : State) (m : List Host.Cell) : (s.setPayload m).schedule = s.schedule := rfl
@[simp] theorem State.setPayload_draws (s : State) (m : List Host.Cell) : (s.setPayload m).draws = s.draws := rfl

@[simp] theorem State.setReq_ctrl (s : State) (r : Option (List Byte)) : (s.setReq r).ctrl = s.ctrl := rfl
@[simp] theorem State.setReq_pass (s : State) (r : Option (List Byte)) : (s.setReq r).pass = s.pass := rfl
@[simp] theorem State.setReq_errCmd (s : State) (r : Option (List Byte)) : (s.setReq r).errCmd = s.errCmd := rfl
@[simp] theorem State.setReq_errBusy (s : State) (r : Option (List Byte)) : (s.setReq r).errBusy = s.errBusy := rfl
@[simp] theorem State.setReq_errParam (s : State) (r : Option (List Byte)) : (s.setReq r).errParam = s.errParam := rfl
@[simp] theorem State.setReq_errAccess (s : State) (r : Option (List Byte)) : (s.setReq r).errAccess = s.errAccess := rfl
@[simp] theorem State.setReq_difficulty (s : State) (r : Option (List Byte)) : (s.setReq r).difficulty = s.difficulty := rfl
@[simp] theorem State.setReq_plen (s : State) (r : Option (List Byte)) : (s.setReq r).plen = s.plen := rfl
@[simp] theorem State.setReq_counter (s : State) (r : Option (List Byte)) : (s.setReq r).counter = s.counter := rfl
@[simp] theorem State.setReq_result (s : State) (r : Option (List Byte)) : (s.setReq r).result = s.result := rfl
@[simp] theorem State.setReq_maxPay (s : State) (r : Option (List Byte)) : (s.setReq r).maxPay = s.maxPay := rfl
@[simp] theorem State.setReq_digest (s : State) (r : Option (List Byte)) : (s.setReq r).digest = s.digest := rfl
@[simp] theorem State.setReq_payload (s : State) (r : Option (List Byte)) : (s.setReq r).payload = s.payload := rfl
@[simp] theorem State.setReq_req (s : State) (r : Option (List Byte)) : (s.setReq r).req = r := rfl
@[simp] theorem State.setReq_rdata (s : State) (r : Option (List Byte)) : (s.setReq r).rdata = s.rdata := rfl
@[simp] theorem State.setReq_hostOps (s : State) (r : Option (List Byte)) : (s.setReq r).hostOps = s.hostOps := rfl
@[simp] theorem State.setReq_schedule (s : State) (r : Option (List Byte)) : (s.setReq r).schedule = s.schedule := rfl
@[simp] theorem State.setReq_draws (s : State) (r : Option (List Byte)) : (s.setReq r).draws = s.draws := rfl

@[simp] theorem State.setRdata_ctrl (s : State) (v : Word) : (s.setRdata v).ctrl = s.ctrl := rfl
@[simp] theorem State.setRdata_pass (s : State) (v : Word) : (s.setRdata v).pass = s.pass := rfl
@[simp] theorem State.setRdata_errCmd (s : State) (v : Word) : (s.setRdata v).errCmd = s.errCmd := rfl
@[simp] theorem State.setRdata_errBusy (s : State) (v : Word) : (s.setRdata v).errBusy = s.errBusy := rfl
@[simp] theorem State.setRdata_errParam (s : State) (v : Word) : (s.setRdata v).errParam = s.errParam := rfl
@[simp] theorem State.setRdata_errAccess (s : State) (v : Word) : (s.setRdata v).errAccess = s.errAccess := rfl
@[simp] theorem State.setRdata_difficulty (s : State) (v : Word) : (s.setRdata v).difficulty = s.difficulty := rfl
@[simp] theorem State.setRdata_plen (s : State) (v : Word) : (s.setRdata v).plen = s.plen := rfl
@[simp] theorem State.setRdata_counter (s : State) (v : Word) : (s.setRdata v).counter = s.counter := rfl
@[simp] theorem State.setRdata_result (s : State) (v : Word) : (s.setRdata v).result = s.result := rfl
@[simp] theorem State.setRdata_maxPay (s : State) (v : Word) : (s.setRdata v).maxPay = s.maxPay := rfl
@[simp] theorem State.setRdata_digest (s : State) (v : Word) : (s.setRdata v).digest = s.digest := rfl
@[simp] theorem State.setRdata_payload (s : State) (v : Word) : (s.setRdata v).payload = s.payload := rfl
@[simp] theorem State.setRdata_req (s : State) (v : Word) : (s.setRdata v).req = s.req := rfl
@[simp] theorem State.setRdata_rdata (s : State) (v : Word) : (s.setRdata v).rdata = v := rfl
@[simp] theorem State.setRdata_hostOps (s : State) (v : Word) : (s.setRdata v).hostOps = s.hostOps := rfl
@[simp] theorem State.setRdata_schedule (s : State) (v : Word) : (s.setRdata v).schedule = s.schedule := rfl
@[simp] theorem State.setRdata_draws (s : State) (v : Word) : (s.setRdata v).draws = s.draws := rfl

@[simp] theorem State.setHostOps_ctrl (s : State) (l : List HostOp) : (s.setHostOps l).ctrl = s.ctrl := rfl
@[simp] theorem State.setHostOps_pass (s : State) (l : List HostOp) : (s.setHostOps l).pass = s.pass := rfl
@[simp] theorem State.setHostOps_errCmd (s : State) (l : List HostOp) : (s.setHostOps l).errCmd = s.errCmd := rfl
@[simp] theorem State.setHostOps_errBusy (s : State) (l : List HostOp) : (s.setHostOps l).errBusy = s.errBusy := rfl
@[simp] theorem State.setHostOps_errParam (s : State) (l : List HostOp) : (s.setHostOps l).errParam = s.errParam := rfl
@[simp] theorem State.setHostOps_errAccess (s : State) (l : List HostOp) : (s.setHostOps l).errAccess = s.errAccess := rfl
@[simp] theorem State.setHostOps_difficulty (s : State) (l : List HostOp) : (s.setHostOps l).difficulty = s.difficulty := rfl
@[simp] theorem State.setHostOps_plen (s : State) (l : List HostOp) : (s.setHostOps l).plen = s.plen := rfl
@[simp] theorem State.setHostOps_counter (s : State) (l : List HostOp) : (s.setHostOps l).counter = s.counter := rfl
@[simp] theorem State.setHostOps_result (s : State) (l : List HostOp) : (s.setHostOps l).result = s.result := rfl
@[simp] theorem State.setHostOps_maxPay (s : State) (l : List HostOp) : (s.setHostOps l).maxPay = s.maxPay := rfl
@[simp] theorem State.setHostOps_digest (s : State) (l : List HostOp) : (s.setHostOps l).digest = s.digest := rfl
@[simp] theorem State.setHostOps_payload (s : State) (l : List HostOp) : (s.setHostOps l).payload = s.payload := rfl
@[simp] theorem State.setHostOps_req (s : State) (l : List HostOp) : (s.setHostOps l).req = s.req := rfl
@[simp] theorem State.setHostOps_rdata (s : State) (l : List HostOp) : (s.setHostOps l).rdata = s.rdata := rfl
@[simp] theorem State.setHostOps_hostOps (s : State) (l : List HostOp) : (s.setHostOps l).hostOps = l := rfl
@[simp] theorem State.setHostOps_schedule (s : State) (l : List HostOp) : (s.setHostOps l).schedule = s.schedule := rfl
@[simp] theorem State.setHostOps_draws (s : State) (l : List HostOp) : (s.setHostOps l).draws = s.draws := rfl

@[simp] theorem State.raise_ctrl (s : State) (e : ErrBit) : (s.raise e).ctrl = s.ctrl := rfl
@[simp] theorem State.raise_pass (s : State) (e : ErrBit) : (s.raise e).pass = s.pass := rfl
@[simp] theorem State.raise_errCmd (s : State) (e : ErrBit) : (s.raise e).errCmd = (s.errCmd || e == .cmd) := rfl
@[simp] theorem State.raise_errBusy (s : State) (e : ErrBit) : (s.raise e).errBusy = (s.errBusy || e == .busy) := rfl
@[simp] theorem State.raise_errParam (s : State) (e : ErrBit) : (s.raise e).errParam = (s.errParam || e == .param) := rfl
@[simp] theorem State.raise_errAccess (s : State) (e : ErrBit) : (s.raise e).errAccess = (s.errAccess || e == .access) := rfl
@[simp] theorem State.raise_difficulty (s : State) (e : ErrBit) : (s.raise e).difficulty = s.difficulty := rfl
@[simp] theorem State.raise_plen (s : State) (e : ErrBit) : (s.raise e).plen = s.plen := rfl
@[simp] theorem State.raise_counter (s : State) (e : ErrBit) : (s.raise e).counter = s.counter := rfl
@[simp] theorem State.raise_result (s : State) (e : ErrBit) : (s.raise e).result = s.result := rfl
@[simp] theorem State.raise_maxPay (s : State) (e : ErrBit) : (s.raise e).maxPay = s.maxPay := rfl
@[simp] theorem State.raise_digest (s : State) (e : ErrBit) : (s.raise e).digest = s.digest := rfl
@[simp] theorem State.raise_payload (s : State) (e : ErrBit) : (s.raise e).payload = s.payload := rfl
@[simp] theorem State.raise_req (s : State) (e : ErrBit) : (s.raise e).req = s.req := rfl
@[simp] theorem State.raise_rdata (s : State) (e : ErrBit) : (s.raise e).rdata = s.rdata := rfl
@[simp] theorem State.raise_hostOps (s : State) (e : ErrBit) : (s.raise e).hostOps = s.hostOps := rfl
@[simp] theorem State.raise_schedule (s : State) (e : ErrBit) : (s.raise e).schedule = s.schedule := rfl
@[simp] theorem State.raise_draws (s : State) (e : ErrBit) : (s.raise e).draws = s.draws := rfl

@[simp] theorem State.clearErrors_ctrl (s : State) : s.clearErrors.ctrl = s.ctrl := rfl
@[simp] theorem State.clearErrors_pass (s : State) : s.clearErrors.pass = s.pass := rfl
@[simp] theorem State.clearErrors_errCmd (s : State) : s.clearErrors.errCmd = false := rfl
@[simp] theorem State.clearErrors_errBusy (s : State) : s.clearErrors.errBusy = false := rfl
@[simp] theorem State.clearErrors_errParam (s : State) : s.clearErrors.errParam = false := rfl
@[simp] theorem State.clearErrors_errAccess (s : State) : s.clearErrors.errAccess = false := rfl
@[simp] theorem State.clearErrors_difficulty (s : State) : s.clearErrors.difficulty = s.difficulty := rfl
@[simp] theorem State.clearErrors_plen (s : State) : s.clearErrors.plen = s.plen := rfl
@[simp] theorem State.clearErrors_counter (s : State) : s.clearErrors.counter = s.counter := rfl
@[simp] theorem State.clearErrors_result (s : State) : s.clearErrors.result = s.result := rfl
@[simp] theorem State.clearErrors_maxPay (s : State) : s.clearErrors.maxPay = s.maxPay := rfl
@[simp] theorem State.clearErrors_digest (s : State) : s.clearErrors.digest = s.digest := rfl
@[simp] theorem State.clearErrors_payload (s : State) : s.clearErrors.payload = s.payload := rfl
@[simp] theorem State.clearErrors_req (s : State) : s.clearErrors.req = s.req := rfl
@[simp] theorem State.clearErrors_rdata (s : State) : s.clearErrors.rdata = s.rdata := rfl
@[simp] theorem State.clearErrors_hostOps (s : State) : s.clearErrors.hostOps = s.hostOps := rfl
@[simp] theorem State.clearErrors_schedule (s : State) : s.clearErrors.schedule = s.schedule := rfl
@[simp] theorem State.clearErrors_draws (s : State) : s.clearErrors.draws = s.draws := rfl

/-! Fields computed from STATE follow it. -/

@[simp] theorem State.setPass_busy (s : State) (b : Bool) : (s.setPass b).busy = s.busy := rfl
@[simp] theorem State.setPass_done (s : State) (b : Bool) : (s.setPass b).done = s.done := rfl
@[simp] theorem State.setPass_irq (s : State) (b : Bool) : (s.setPass b).irq = s.irq := rfl
@[simp] theorem State.setDifficulty_busy (s : State) (v : Word) : (s.setDifficulty v).busy = s.busy := rfl
@[simp] theorem State.setDifficulty_done (s : State) (v : Word) : (s.setDifficulty v).done = s.done := rfl
@[simp] theorem State.setDifficulty_irq (s : State) (v : Word) : (s.setDifficulty v).irq = s.irq := rfl
@[simp] theorem State.setPlen_busy (s : State) (v : Word) : (s.setPlen v).busy = s.busy := rfl
@[simp] theorem State.setPlen_done (s : State) (v : Word) : (s.setPlen v).done = s.done := rfl
@[simp] theorem State.setPlen_irq (s : State) (v : Word) : (s.setPlen v).irq = s.irq := rfl
@[simp] theorem State.setCounter_busy (s : State) (c : Count) : (s.setCounter c).busy = s.busy := rfl
@[simp] theorem State.setCounter_done (s : State) (c : Count) : (s.setCounter c).done = s.done := rfl
@[simp] theorem State.setCounter_irq (s : State) (c : Count) : (s.setCounter c).irq = s.irq := rfl
@[simp] theorem State.setResult_busy (s : State) (c : Count) : (s.setResult c).busy = s.busy := rfl
@[simp] theorem State.setResult_done (s : State) (c : Count) : (s.setResult c).done = s.done := rfl
@[simp] theorem State.setResult_irq (s : State) (c : Count) : (s.setResult c).irq = s.irq := rfl
@[simp] theorem State.setDigest_busy (s : State) (d : Digest) : (s.setDigest d).busy = s.busy := rfl
@[simp] theorem State.setDigest_done (s : State) (d : Digest) : (s.setDigest d).done = s.done := rfl
@[simp] theorem State.setDigest_irq (s : State) (d : Digest) : (s.setDigest d).irq = s.irq := rfl
@[simp] theorem State.setPayload_busy (s : State) (m : List Host.Cell) : (s.setPayload m).busy = s.busy := rfl
@[simp] theorem State.setPayload_done (s : State) (m : List Host.Cell) : (s.setPayload m).done = s.done := rfl
@[simp] theorem State.setPayload_irq (s : State) (m : List Host.Cell) : (s.setPayload m).irq = s.irq := rfl
@[simp] theorem State.setReq_busy (s : State) (r : Option (List Byte)) : (s.setReq r).busy = s.busy := rfl
@[simp] theorem State.setReq_done (s : State) (r : Option (List Byte)) : (s.setReq r).done = s.done := rfl
@[simp] theorem State.setReq_irq (s : State) (r : Option (List Byte)) : (s.setReq r).irq = s.irq := rfl
@[simp] theorem State.setRdata_busy (s : State) (v : Word) : (s.setRdata v).busy = s.busy := rfl
@[simp] theorem State.setRdata_done (s : State) (v : Word) : (s.setRdata v).done = s.done := rfl
@[simp] theorem State.setRdata_irq (s : State) (v : Word) : (s.setRdata v).irq = s.irq := rfl
@[simp] theorem State.setHostOps_busy (s : State) (l : List HostOp) : (s.setHostOps l).busy = s.busy := rfl
@[simp] theorem State.setHostOps_done (s : State) (l : List HostOp) : (s.setHostOps l).done = s.done := rfl
@[simp] theorem State.setHostOps_irq (s : State) (l : List HostOp) : (s.setHostOps l).irq = s.irq := rfl
@[simp] theorem State.raise_busy (s : State) (e : ErrBit) : (s.raise e).busy = s.busy := rfl
@[simp] theorem State.raise_done (s : State) (e : ErrBit) : (s.raise e).done = s.done := rfl
@[simp] theorem State.raise_irq (s : State) (e : ErrBit) : (s.raise e).irq = s.irq := rfl
@[simp] theorem State.clearErrors_busy (s : State) : s.clearErrors.busy = s.busy := rfl
@[simp] theorem State.clearErrors_done (s : State) : s.clearErrors.done = s.done := rfl
@[simp] theorem State.clearErrors_irq (s : State) : s.clearErrors.irq = s.irq := rfl

@[simp] theorem resetStep_ctrl (s : State) : (resetStep s).ctrl = .idle := rfl
@[simp] theorem resetStep_pass (s : State) : (resetStep s).pass = false := rfl
@[simp] theorem resetStep_errCmd (s : State) : (resetStep s).errCmd = false := rfl
@[simp] theorem resetStep_errBusy (s : State) : (resetStep s).errBusy = false := rfl
@[simp] theorem resetStep_errParam (s : State) : (resetStep s).errParam = false := rfl
@[simp] theorem resetStep_errAccess (s : State) : (resetStep s).errAccess = false := rfl
@[simp] theorem resetStep_difficulty (s : State) : (resetStep s).difficulty = 0 := rfl
@[simp] theorem resetStep_plen (s : State) : (resetStep s).plen = 0 := rfl
@[simp] theorem resetStep_counter (s : State) : (resetStep s).counter = 0 := rfl
@[simp] theorem resetStep_result (s : State) : (resetStep s).result = 0 := rfl
@[simp] theorem resetStep_maxPay (s : State) : (resetStep s).maxPay = s.maxPay := rfl
@[simp] theorem resetStep_digest (s : State) : (resetStep s).digest = Vector.replicate 32 0#8 := rfl
@[simp] theorem resetStep_payload (s : State) : (resetStep s).payload = s.payload := rfl
@[simp] theorem resetStep_req (s : State) : (resetStep s).req = none := rfl
@[simp] theorem resetStep_rdata (s : State) : (resetStep s).rdata = s.rdata := rfl
@[simp] theorem resetStep_hostOps (s : State) : (resetStep s).hostOps = s.hostOps := rfl
@[simp] theorem resetStep_schedule (s : State) : (resetStep s).schedule = s.schedule := rfl
@[simp] theorem resetStep_draws (s : State) : (resetStep s).draws = s.draws := rfl

/-! A payload word write touches the payload buffer alone. -/

@[simp] theorem State.writePayWord_ctrl (s : State) (o : Nat) (v : Word) : (s.writePayWord o v).ctrl = s.ctrl := rfl
@[simp] theorem State.writePayWord_pass (s : State) (o : Nat) (v : Word) : (s.writePayWord o v).pass = s.pass := rfl
@[simp] theorem State.writePayWord_errCmd (s : State) (o : Nat) (v : Word) : (s.writePayWord o v).errCmd = s.errCmd := rfl
@[simp] theorem State.writePayWord_errBusy (s : State) (o : Nat) (v : Word) : (s.writePayWord o v).errBusy = s.errBusy := rfl
@[simp] theorem State.writePayWord_errParam (s : State) (o : Nat) (v : Word) : (s.writePayWord o v).errParam = s.errParam := rfl
@[simp] theorem State.writePayWord_errAccess (s : State) (o : Nat) (v : Word) : (s.writePayWord o v).errAccess = s.errAccess := rfl
@[simp] theorem State.writePayWord_difficulty (s : State) (o : Nat) (v : Word) : (s.writePayWord o v).difficulty = s.difficulty := rfl
@[simp] theorem State.writePayWord_plen (s : State) (o : Nat) (v : Word) : (s.writePayWord o v).plen = s.plen := rfl
@[simp] theorem State.writePayWord_counter (s : State) (o : Nat) (v : Word) : (s.writePayWord o v).counter = s.counter := rfl
@[simp] theorem State.writePayWord_result (s : State) (o : Nat) (v : Word) : (s.writePayWord o v).result = s.result := rfl
@[simp] theorem State.writePayWord_maxPay (s : State) (o : Nat) (v : Word) : (s.writePayWord o v).maxPay = s.maxPay := rfl
@[simp] theorem State.writePayWord_digest (s : State) (o : Nat) (v : Word) : (s.writePayWord o v).digest = s.digest := rfl
@[simp] theorem State.writePayWord_req (s : State) (o : Nat) (v : Word) : (s.writePayWord o v).req = s.req := rfl
@[simp] theorem State.writePayWord_rdata (s : State) (o : Nat) (v : Word) : (s.writePayWord o v).rdata = s.rdata := rfl
@[simp] theorem State.writePayWord_hostOps (s : State) (o : Nat) (v : Word) : (s.writePayWord o v).hostOps = s.hostOps := rfl
@[simp] theorem State.writePayWord_schedule (s : State) (o : Nat) (v : Word) : (s.writePayWord o v).schedule = s.schedule := rfl
@[simp] theorem State.writePayWord_draws (s : State) (o : Nat) (v : Word) : (s.writePayWord o v).draws = s.draws := rfl
@[simp] theorem State.writePayWord_busy (s : State) (o : Nat) (v : Word) : (s.writePayWord o v).busy = s.busy := rfl
@[simp] theorem State.writePayWord_done (s : State) (o : Nat) (v : Word) : (s.writePayWord o v).done = s.done := rfl
@[simp] theorem State.writePayWord_irq (s : State) (o : Nat) (v : Word) : (s.writePayWord o v).irq = s.irq := rfl

end Sys2Proof.Machine
end

