-- ==== Sys2Proof/Laws/Flags.lean ====
section
/-! SUPPORT. The STATUS word as a number and bit by bit. -/

namespace Sys2Proof.Machine

/-- STATUS as the sum of its fields (R20). -/
theorem State.statusWord_toNat (s : State) :
    s.statusWord.toNat =
      s.ctrl.code.toNat + 8 * s.busy.toNat + 16 * s.done.toNat + 32 * s.foundBit.toNat + 64 * s.exhaustedBit.toNat
        + 128 * s.pass.toNat + 256 * s.errCmd.toNat + 512 * s.errBusy.toNat + 1024 * s.errParam.toNat
        + 2048 * s.errAccess.toNat := by
  unfold State.statusWord State.busy State.done State.foundBit State.exhaustedBit
  generalize s.ctrl = c, s.pass = p, s.errCmd = e1, s.errBusy = e2, s.errParam = e3, s.errAccess = e4
  cases c <;> cases p <;> cases e1 <;> cases e2 <;> cases e3 <;> cases e4 <;> decide

/-- STATUS is 0 in a block that is IDLE with PASS and every error bit 0 (R36, R124). -/
theorem State.statusWord_eq_zero {s : State} (hc : s.ctrl = .idle) (hp : s.pass = false) (h1 : s.errCmd = false)
    (h2 : s.errBusy = false) (h3 : s.errParam = false) (h4 : s.errAccess = false) : s.statusWord = 0#32 := by
  apply BitVec.eq_of_toNat_eq
  rw [s.statusWord_toNat]
  simp [hp, h1, h2, h3, h4, State.busy, State.done, State.foundBit, State.exhaustedBit, hc, CtrlState.code]

theorem CtrlState.code_le (c : CtrlState) : c.code.toNat ≤ 5 := by cases c <;> decide

theorem Bool.toNat_eq_mod_two {b : Bool} {n : Nat} (h : n % 2 = b.toNat) : decide (n % 2 = 1) = b := by
  cases b <;> simp_all

/-- The flag bits of STATUS, each where R20 has it. -/
theorem State.statusWord_bits (s : State) :
    s.statusWord.getLsbD 3 = s.busy ∧ s.statusWord.getLsbD 4 = s.done ∧ s.statusWord.getLsbD 5 = s.foundBit ∧
    s.statusWord.getLsbD 6 = s.exhaustedBit ∧ s.statusWord.getLsbD 7 = s.pass ∧ s.statusWord.getLsbD 8 = s.errCmd ∧
    s.statusWord.getLsbD 9 = s.errBusy ∧ s.statusWord.getLsbD 10 = s.errParam ∧
    s.statusWord.getLsbD 11 = s.errAccess := by
  have h := s.statusWord_toNat
  have hc := s.ctrl.code_le
  have b1 := Bool.toNat_le s.busy
  have b2 := Bool.toNat_le s.done
  have b3 := Bool.toNat_le s.foundBit
  have b4 := Bool.toNat_le s.exhaustedBit
  have b5 := Bool.toNat_le s.pass
  have b6 := Bool.toNat_le s.errCmd
  have b7 := Bool.toNat_le s.errBusy
  have b8 := Bool.toNat_le s.errParam
  have b9 := Bool.toNat_le s.errAccess
  simp only [BitVec.getLsbD, Nat.testBit_eq_decide_div_mod_eq]
  refine ⟨?_, ?_, ?_, ?_, ?_, ?_, ?_, ?_, ?_⟩ <;> apply Bool.toNat_eq_mod_two <;> omega

/-- The STATE field of STATUS, and its reserved bits (R20). -/
theorem State.statusWord_fields (s : State) :
    s.statusWord.extractLsb' 0 3 = s.ctrl.code ∧ s.statusWord.extractLsb' 12 20 = 0#20 := by
  have h := s.statusWord_toNat
  have hc := s.ctrl.code_le
  have b1 := Bool.toNat_le s.busy
  have b2 := Bool.toNat_le s.done
  have b3 := Bool.toNat_le s.foundBit
  have b4 := Bool.toNat_le s.exhaustedBit
  have b5 := Bool.toNat_le s.pass
  have b6 := Bool.toNat_le s.errCmd
  have b7 := Bool.toNat_le s.errBusy
  have b8 := Bool.toNat_le s.errParam
  have b9 := Bool.toNat_le s.errAccess
  constructor <;> apply BitVec.eq_of_toNat_eq <;>
    simp only [BitVec.extractLsb'_toNat, Nat.shiftRight_eq_div_pow, BitVec.toNat_ofNat] <;> omega

end Sys2Proof.Machine
end

