-- ==== Sys2Proof/Laws/Operands.lean ====
section
/-! SUPPORT. The register map read backwards: what an offset is, for each thing it can name. -/

namespace Sys2Proof.Machine

/-- Everything `target` can answer, and what the offset then is. -/
theorem target_cases (cap off : Word) :
    (off.toNat % 4 ≠ 0 ∧ target cap off = .misaligned) ∨
    (off.toNat % 4 = 0 ∧
      ((off.toNat = 0x000 ∧ target cap off = .ctrl) ∨ (off.toNat = 0x004 ∧ target cap off = .status) ∨
      (off.toNat = 0x008 ∧ target cap off = .difficulty) ∨ (off.toNat = 0x00C ∧ target cap off = .plen) ∨
      (off.toNat = 0x010 ∧ target cap off = .counterLo) ∨ (off.toNat = 0x014 ∧ target cap off = .counterHi) ∨
      (off.toNat = 0x018 ∧ target cap off = .resultLo) ∨ (off.toNat = 0x01C ∧ target cap off = .resultHi) ∨
      (off.toNat = 0x020 ∧ target cap off = .maxPay) ∨
      (0x040 ≤ off.toNat ∧ off.toNat < 0x060 ∧ target cap off = .digest (off.toNat - 0x040)) ∨
      (0x1000 ≤ off.toNat ∧ off.toNat - 0x1000 < cap.toNat ∧ target cap off = .payload (off.toNat - 0x1000)) ∨
      ((0x024 ≤ off.toNat ∧ off.toNat < 0x040 ∨ 0x060 ≤ off.toNat ∧ off.toNat < 0x1000 ∨
          0x1000 + cap.toNat ≤ off.toNat) ∧ target cap off = .reserved))) := by
  unfold target
  generalize off.toNat = o
  by_cases h : o % 4 = 0
  swap
  · left; rw [if_pos h]; exact ⟨h, rfl⟩
  right
  refine ⟨h, ?_⟩
  rw [if_neg (not_not.mpr h)]
  by_cases h0 : o = 0x000
  · left; rw [if_pos h0]; exact ⟨h0, rfl⟩
  right; rw [if_neg h0]
  by_cases h1 : o = 0x004
  · left; rw [if_pos h1]; exact ⟨h1, rfl⟩
  right; rw [if_neg h1]
  by_cases h2 : o = 0x008
  · left; rw [if_pos h2]; exact ⟨h2, rfl⟩
  right; rw [if_neg h2]
  by_cases h3 : o = 0x00C
  · left; rw [if_pos h3]; exact ⟨h3, rfl⟩
  right; rw [if_neg h3]
  by_cases h4 : o = 0x010
  · left; rw [if_pos h4]; exact ⟨h4, rfl⟩
  right; rw [if_neg h4]
  by_cases h5 : o = 0x014
  · left; rw [if_pos h5]; exact ⟨h5, rfl⟩
  right; rw [if_neg h5]
  by_cases h6 : o = 0x018
  · left; rw [if_pos h6]; exact ⟨h6, rfl⟩
  right; rw [if_neg h6]
  by_cases h7 : o = 0x01C
  · left; rw [if_pos h7]; exact ⟨h7, rfl⟩
  right; rw [if_neg h7]
  by_cases h8 : o = 0x020
  · left; rw [if_pos h8]; exact ⟨h8, rfl⟩
  right; rw [if_neg h8]
  by_cases h9 : 0x040 ≤ o ∧ o < 0x060
  · left; rw [if_pos h9]; exact ⟨h9.1, h9.2, rfl⟩
  right; rw [if_neg h9]
  by_cases h10 : 0x1000 ≤ o ∧ o - 0x1000 < cap.toNat
  · left; rw [if_pos h10]; exact ⟨h10.1, h10.2, rfl⟩
  right; rw [if_neg h10]
  exact ⟨by omega, rfl⟩

theorem target_misaligned {cap off : Word} (h : off.toNat % 4 ≠ 0) : target cap off = .misaligned := by
  simp [target, h]

theorem target_readonly {cap off : Word} (h : off.toNat ∈ [0x004, 0x010, 0x014, 0x018, 0x01C, 0x020]) :
    target cap off = .status ∨ target cap off = .counterLo ∨ target cap off = .counterHi ∨
      target cap off = .resultLo ∨ target cap off = .resultHi ∨ target cap off = .maxPay := by
  simp only [List.mem_cons, List.not_mem_nil, or_false] at h
  rcases h with h | h | h | h | h | h <;> simp [target, h]

theorem target_reserved {cap off : Word} (h4 : off.toNat % 4 = 0)
    (h : 0x024 ≤ off.toNat ∧ off.toNat < 0x040 ∨ 0x060 ≤ off.toNat ∧ off.toNat < 0x1000 ∨
      0x1000 + cap.toNat ≤ off.toNat) : target cap off = .reserved := by
  unfold target
  repeat rw [if_neg (by omega)]

/-- DIGESTk is at `0x040 + 4k` (R42). -/
theorem target_digest {cap off : Word} {k : Nat} (hk : k < 8) (h : off.toNat = 0x040 + 4 * k) :
    target cap off = .digest (4 * k) := by
  unfold target
  repeat rw [if_neg (by omega)]
  rw [if_pos (by omega), h, Nat.add_sub_cancel_left]

/-- PAYLOADk is at `0x1000 + 4k` (R41). -/
theorem target_payload {cap off : Word} {k : Nat} (hk : 4 * k < cap.toNat) (h : off.toNat = 0x1000 + 4 * k) :
    target cap off = .payload (4 * k) := by
  unfold target
  repeat rw [if_neg (by omega)]
  rw [if_pos (by omega), h, Nat.add_sub_cancel_left]

/-- What an offset is, for what it names: CTRL is offset 0, a DIGEST word has its four bytes inside the digest, and a payload
word starts inside the buffer at a multiple of four. -/
theorem target_sound (cap off : Word) :
    match target cap off with
    | .ctrl => off.toNat = 0x000
    | .digest o => o + 4 ≤ 32
    | .payload o => o % 4 = 0 ∧ o < cap.toNat
    | _ => True := by
  have h := target_cases cap off
  generalize ht : target cap off = t at h
  cases t <;> simp at h ⊢ <;> omega

end Sys2Proof.Machine
end

