-- ==== Sys2Proof/Laws/Ops.lean ====
section
/-! SUPPORT. The payload buffer, the byte lanes and the digest bytes: read after write, and the canonical form. -/

namespace Sys2Proof.Machine

/-! ## The byte list -/

theorem Memory.find_set_same (m : List Host.Cell) (a : Nat) (b : Byte) :
    Memory.find (Memory.set m a b) a = some b := by
  induction m with
  | nil => simp [Memory.set, Memory.find]
  | cons c m ih =>
    simp only [Memory.set]
    split
    · simp [Memory.find]
    · split
      · simp [Memory.find]
      · next h => simp [Memory.find, Ne.symm h, ih]

theorem Memory.find_set_other (m : List Host.Cell) {a a' : Nat} (b : Byte) (h : a' ≠ a) :
    Memory.find (Memory.set m a b) a' = Memory.find m a' := by
  induction m with
  | nil => simp [Memory.set, Memory.find, Ne.symm h]
  | cons c m ih =>
    simp only [Memory.set]
    split
    · simp [Memory.find, Ne.symm h]
    · split
      · next e => subst e; simp [Memory.find, Ne.symm h]
      · simp [Memory.find, ih]

/-- One lemma for both: what the byte list holds after a store. -/
theorem Memory.find_set (m : List Host.Cell) (a a' : Nat) (b : Byte) :
    Memory.find (Memory.set m a b) a' = if a' = a then some b else Memory.find m a' := by
  split
  · next h => subst h; exact Memory.find_set_same m _ b
  · next h => exact Memory.find_set_other m b h

theorem Memory.wf_tail {c : Host.Cell} {m : List Host.Cell} (h : Memory.wf (c :: m) = true) : Memory.wf m = true := by
  cases m with
  | nil => rfl
  | cons d m => simp only [Memory.wf, Bool.and_eq_true] at h; exact h.2

/-- A store keeps the canonical form, and keeps a list that starts above `lo` above `lo`. -/
theorem Memory.wf_cons_set (c : Host.Cell) (m : List Host.Cell) (a : Nat) (b : Byte)
    (h : Memory.wf (c :: m) = true) (hlt : c.1 < a) : Memory.wf (c :: Memory.set m a b) = true := by
  induction m generalizing c with
  | nil => simp [Memory.set, Memory.wf, hlt]
  | cons d m ih =>
    simp only [Memory.wf, Bool.and_eq_true, decide_eq_true_eq] at h
    simp only [Memory.set]
    split
    · next h1 => simp [Memory.wf, hlt, h1, h.2]
    · split
      · next h2 =>
        have : Memory.wf ((a, b) :: m) = true := by
          cases m with
          | nil => rfl
          | cons e m => simpa [Memory.wf, h2] using h.2
        simp [Memory.wf, hlt, this]
      · next h1 h2 =>
        have := ih d h.2 (by omega)
        simp [Memory.wf, h.1, this]

theorem Memory.wf_set (m : List Host.Cell) (a : Nat) (b : Byte) (h : Memory.wf m = true) :
    Memory.wf (Memory.set m a b) = true := by
  cases m with
  | nil => rfl
  | cons c m =>
    simp only [Memory.set]
    split
    · next h1 => simp [Memory.wf, h1, h]
    · split
      · next h2 =>
        cases m with
        | nil => rfl
        | cons e m => simpa [Memory.wf, h2] using h
      · next h1 h2 => exact Memory.wf_cons_set c m a b h (by omega)

theorem Memory.within_set (cap : Nat) (m : List Host.Cell) (a : Nat) (b : Byte) (h : Memory.within cap m = true)
    (ha : a < cap) : Memory.within cap (Memory.set m a b) = true := by
  induction m with
  | nil => simp [Memory.set, Memory.within, ha]
  | cons c m ih =>
    simp only [Memory.within, List.all_cons, Bool.and_eq_true, decide_eq_true_eq] at h ih
    simp only [Memory.set]
    split
    · simp [Memory.within, ha, h.1]; simpa [Memory.within] using h.2
    · split
      · simp [Memory.within, ha]; simpa [Memory.within] using h.2
      · simp only [Memory.within, List.all_cons, Bool.and_eq_true, decide_eq_true_eq]
        exact ⟨h.1, ih h.2⟩

/-- Storing a byte that is already there changes nothing, in a list of canonical form. -/
theorem Memory.set_find_self (m : List Host.Cell) (a : Nat) (b : Byte) (h : Memory.wf m = true)
    (hf : Memory.find m a = some b) : Memory.set m a b = m := by
  induction m with
  | nil => simp [Memory.find] at hf
  | cons c m ih =>
    simp only [Memory.find] at hf
    split at hf
    · next e => subst e; simp only [Option.some.injEq] at hf; subst hf; simp [Memory.set]
    · next e =>
      have hlt : c.1 < a := by
        clear ih
        induction m generalizing c with
        | nil => simp [Memory.find] at hf
        | cons d m ih2 =>
          have h' := h
          simp only [Memory.wf, Bool.and_eq_true, decide_eq_true_eq] at h
          simp only [Memory.find] at hf
          split at hf
          · next e2 => omega
          · next e2 => exact lt_trans h.1 (ih2 d (by simpa [Memory.wf] using h.2) e2 hf)
      simp only [Memory.set, if_neg (by omega : ¬ a < c.1), if_neg (Ne.symm e), List.cons.injEq, true_and]
      exact ih (Memory.wf_tail h) hf

/-! ## Lanes -/

theorem laneWord_lanes (v : Word) : laneWord (lane v 0) (lane v 1) (lane v 2) (lane v 3) = v := by
  apply BitVec.eq_of_getLsbD_eq
  intro i hi
  simp only [laneWord, lane, BitVec.getLsbD_append, BitVec.getLsbD_extractLsb']
  rcases Nat.lt_or_ge i 8 with h | h
  · simp [h]
  rcases Nat.lt_or_ge i 16 with h2 | h2
  · simp [show ¬ i < 8 by omega, show i - 8 < 8 by omega, show 8 + (i - 8) = i by omega]
  rcases Nat.lt_or_ge i 24 with h3 | h3
  · simp [show ¬ i < 8 by omega, show ¬ i - 8 < 8 by omega, show i - 8 - 8 < 8 by omega,
      show 16 + (i - 8 - 8) = i by omega]
  · simp [show ¬ i < 8 by omega, show ¬ i - 8 < 8 by omega, show ¬ i - 8 - 8 < 8 by omega,
      show i - 8 - 8 - 8 < 8 by omega, show 24 + (i - 8 - 8 - 8) = i by omega]

/-! ## Payload and digest bytes -/

/-- Everything a payload word write does to the buffer, byte by byte. -/
theorem State.payByte_writePayWord (s : State) (o : Nat) (v : Word) (i : Nat) :
    (s.writePayWord o v).payByte i =
      if o ≤ i ∧ i < o + 4 then lane v (i - o) else s.payByte i := by
  simp only [State.payByte, State.writePayWord, State.setPayload_payload, Memory.find_set]
  by_cases h3 : i = o + 3
  · subst h3; simp
  by_cases h2 : i = o + 2
  · subst h2; simp
  by_cases h1 : i = o + 1
  · subst h1; simp
  by_cases h0 : i = o
  · subst h0; simp
  · rw [if_neg h3, if_neg h2, if_neg h1, if_neg h0, if_neg (by omega)]

theorem digByte_of_ge (d : Digest) {i : Nat} (h : 32 ≤ i) : digByte d i = 0 := by
  simp [digByte, h]

theorem digByte_setIfInBounds (d : Digest) (j : Nat) (b : Byte) (i : Nat) :
    digByte (d.setIfInBounds j b) i = if i = j ∧ i < 32 then b else digByte d i := by
  simp only [digByte, Vector.getElem?_setIfInBounds]
  by_cases h : j = i
  · subst h
    by_cases h2 : j < 32
    · simp [h2]
    · simp [h2]
  · simp [h, Ne.symm h]

/-- Everything a digest word write does to the digest, byte by byte. -/
theorem digByte_writeDigWord (d : Digest) (o : Nat) (v : Word) (i : Nat) :
    digByte (writeDigWord d o v) i =
      if o ≤ i ∧ i < o + 4 ∧ i < 32 then lane v (i - o) else digByte d i := by
  simp only [writeDigWord, digByte_setIfInBounds]
  by_cases hi : i < 32
  · by_cases h3 : i = o + 3
    · subst h3; simp [hi]
    by_cases h2 : i = o + 2
    · subst h2; simp [hi]
    by_cases h1 : i = o + 1
    · subst h1; simp [hi]
    by_cases h0 : i = o
    · subst h0; simp [hi]
    · rw [if_neg (by tauto), if_neg (by tauto), if_neg (by tauto), if_neg (by tauto), if_neg (by omega)]
  · simp [hi]

/-- Two digests with the same 32 bytes are equal. -/
theorem Digest.ext_bytes {d e : Digest} (h : ∀ i, i < 32 → digByte d i = digByte e i) : d = e := by
  apply Vector.ext
  intro i hi
  have := h i hi
  simpa [digByte, hi] using this

theorem digByte_digestOfBytes (bs : List Byte) {i : Nat} (h : i < 32) : digByte (digestOfBytes bs) i = bs.getD i 0 := by
  rw [digByte, Vector.getElem?_eq_getElem h]
  simp [digestOfBytes]

/-! ## The message -/

@[simp] theorem le64_length (c : Count) : (le64 c).length = 8 := by simp [le64]

theorem State.payBytes_length (s : State) : s.payBytes.length = s.plen.toNat := by simp [State.payBytes]

/-- R37: the length of the message is PLEN + 8. -/
theorem State.message_length (s : State) : s.message.length = s.plen.toNat + 8 := by
  simp [State.message, State.payBytes_length]

/-- The payload of a search depends on PLEN and the buffer alone. -/
theorem State.payBytes_congr {s t : State} (hl : t.plen = s.plen) (hp : t.payload = s.payload) :
    t.payBytes = s.payBytes := by
  unfold State.payBytes State.payByte
  rw [hl, hp]

/-- The message depends on PLEN, the buffer and COUNTER alone. -/
theorem State.message_congr {s t : State} (hl : t.plen = s.plen) (hp : t.payload = s.payload)
    (hc : t.counter = s.counter) : t.message = s.message := by
  rw [State.message, State.message, State.payBytes_congr hl hp, hc]

end Sys2Proof.Machine
end

