-- ==== Sys2Proof/Laws/PerInstr.lean ====
section
/-! SUPPORT. The family FixedBits, one lemma per instruction: the bits that spec/opcode_table.json fixes for its row. -/

namespace Sys2Proof.Laws.FixedBits

/-- The row's word, masked with the row's `mask`, is the row's `match`, and the word fits the row's bytes. -/
def Statement (i : Instr) : Prop :=
  i.tableWord &&& i.rowMask = i.rowMatch ∧ i.tableWord < 256 ^ i.byteLength

/-- A 65-bit number masked with its top bit is that bit. -/
theorem and_topBit {n : Nat} (h : n < 2 ^ 65) :
    n &&& 0x10000000000000000 = if n < 2 ^ 64 then 0x00000000000000000 else 0x10000000000000000 := by
  rw [show (0x10000000000000000 : Nat) = 2 ^ 64 by norm_num, Nat.and_two_pow]
  split
  · next h1 => rw [Nat.testBit_lt_two_pow h1]; rfl
  · next h1 =>
    have : n.testBit 64 = true := by
      rw [Nat.testBit_eq_decide_div_mod_eq]
      simp only [decide_eq_true_eq]
      omega
    rw [this]; rfl

theorem nop : Statement .nop := by unfold Statement; decide
theorem check : Statement .check := by unfold Statement; decide
theorem search : Statement .search := by unfold Statement; decide
theorem clear : Statement .clear := by unfold Statement; decide

theorem rd (off : Word) : Statement (.rd off) := by
  have h : (rdTx off).toNat < 2 ^ 64 := by
    simp only [rdTx, BitVec.toNat_append]
    have := off.isLt
    simp only [BitVec.toNat_ofNat, Nat.shiftLeft_eq]
    simp
    omega
  refine ⟨?_, by simp only [Instr.tableWord, Instr.byteLength]; omega⟩
  simp only [Instr.tableWord, Instr.rowMask, Instr.rowMatch]
  rw [and_topBit (by omega), if_pos h]

theorem wr (off v : Word) : Statement (.wr off v) := by
  have h : 2 ^ 64 ≤ (wrTx off v).toNat := by
    by_contra hn
    have ht : (wrTx off v).getLsbD 64 = true := by
      rw [wrTx, BitVec.getLsbD_append, BitVec.getLsbD_append]
      rfl
    rw [BitVec.getLsbD, Nat.testBit_lt_two_pow (by omega)] at ht
    exact absurd ht (by simp)
  have hl := (wrTx off v).isLt
  refine ⟨?_, by simp only [Instr.tableWord, Instr.byteLength]; omega⟩
  simp only [Instr.tableWord, Instr.rowMask, Instr.rowMatch]
  rw [and_topBit hl, if_neg (by omega)]

end Sys2Proof.Laws.FixedBits
end

