-- ==== Sys2Proof/Laws/Predicate.lean ====
section
/-! SUPPORT. The predicate's byte tests as bit tests. -/

namespace Sys2Proof.Machine

/-- A byte is zero iff its eight bits are, read from the top (R43). -/
theorem byte_eq_zero_iff (b : Byte) : b = 0x00#8 ↔ ∀ j, j < 8 → b.getLsbD (7 - j) = false := by
  constructor
  · rintro rfl j _; simp
  · intro h
    apply BitVec.eq_of_getLsbD_eq
    intro i hi
    have := h (7 - i) (by omega)
    rw [show 7 - (7 - i) = i by omega] at this
    rw [this]; simp

/-- The mask of source step 3 tests the top `r` bits (R68). -/
theorem and_topMask_eq_zero_iff (b : Byte) {r : Nat} (hr : r < 8) :
    b &&& topMask r = 0x00#8 ↔ ∀ j, j < r → b.getLsbD (7 - j) = false := by
  have key : ∀ i, i < 8 → (b &&& topMask r).getLsbD i = (b.getLsbD i && decide (8 - r ≤ i)) := by
    intro i hi
    have hm : (topMask r).getLsbD i = decide (8 - r ≤ i) := by
      rw [topMask, show (0xFF#8 : Byte) = BitVec.allOnes 8 from rfl, BitVec.getLsbD_shiftLeft, BitVec.getLsbD_allOnes]
      by_cases h : i < 8 - r
      · simp [h, hi]; omega
      · simp [h, hi, show i - (8 - r) < 8 by omega, show 8 ≤ i + r by omega]
    rw [BitVec.getLsbD_and, hm]
  constructor
  · intro h j hj
    have := key (7 - j) (by omega)
    rw [h] at this
    simpa [show 8 - r ≤ 7 - j by omega] using this.symm
  · intro h
    apply BitVec.eq_of_getLsbD_eq
    intro i hi
    rw [key i hi]
    by_cases hc : 8 - r ≤ i
    · have := h (7 - i) (by omega)
      rw [show 7 - (7 - i) = i by omega] at this
      simp [this]
    · simp [hc]

/-- `leadingZerosFrom` stops at the first 1 bit from `k` on, or after `fuel` bits. -/
theorem leadingZerosFrom_spec (d : Digest) (fuel k : Nat) :
    k ≤ leadingZerosFrom d fuel k ∧ leadingZerosFrom d fuel k ≤ k + fuel ∧
    (∀ j, k ≤ j → j < leadingZerosFrom d fuel k → digestBit d j = false) ∧
    (leadingZerosFrom d fuel k < k + fuel → digestBit d (leadingZerosFrom d fuel k) = true) := by
  induction fuel generalizing k with
  | zero => exact ⟨le_rfl, le_rfl, fun j h1 h2 => by simp only [leadingZerosFrom] at h2; omega,
      fun h => by simp only [leadingZerosFrom] at h; omega⟩
  | succ n ih =>
    obtain ⟨h1, h2, h3, h4⟩ := ih (k + 1)
    cases hb : digestBit d k with
    | true =>
      rw [leadingZerosFrom, if_pos hb]
      exact ⟨le_rfl, by omega, fun j _ _ => by omega, fun _ => hb⟩
    | false =>
      rw [leadingZerosFrom, if_neg (by rw [hb]; exact Bool.false_ne_true)]
      refine ⟨by omega, by omega, fun j hj hlt => ?_, fun h => h4 (by omega)⟩
      rcases Nat.lt_or_ge k j with h | h
      · exact h3 j h hlt
      · rw [show j = k by omega]; exact hb

end Sys2Proof.Machine
end

