-- ==== Sys2Proof/Laws/Search.lean ====
section
/-! SUPPORT. What each block step can do, said once, and the search invariant's small lemmas. -/

namespace Sys2Proof.Machine

theorem State.busy_iff (s : State) : s.busy = true ↔ s.ctrl = .issue ∨ s.ctrl = .wait ∨ s.ctrl = .test := by
  unfold State.busy; cases s.ctrl <;> simp

theorem State.done_iff (s : State) : s.done = true ↔ s.ctrl = .found ∨ s.ctrl = .exhausted := by
  unfold State.done; cases s.ctrl <;> simp

/-- Everything a CTRL_FSM step can do. -/
theorem ctrlStep_cases (s : State) :
    (s.ctrl ≠ .issue ∧ s.ctrl ≠ .test ∧ ctrlStep s = s) ∨
    (s.ctrl = .issue ∧ ctrlStep s = { s with req := some s.message, ctrl := .wait }) ∨
    (s.ctrl = .test ∧ pred s.digest s.difficulty = true ∧
      ctrlStep s = { s with pass := true, result := s.counter, ctrl := .found }) ∨
    (s.ctrl = .test ∧ pred s.digest s.difficulty = false ∧ s.counter + 1 = 0 ∧
      ctrlStep s = { s with pass := false, counter := 0, ctrl := .exhausted }) ∨
    (s.ctrl = .test ∧ pred s.digest s.difficulty = false ∧ s.counter + 1 ≠ 0 ∧
      ctrlStep s = { s with pass := false, counter := s.counter + 1, ctrl := .issue }) := by
  unfold ctrlStep
  cases hc : s.ctrl with
  | idle => simp
  | issue => simp [issueStep, State.setReq, State.setCtrl]
  | wait => simp
  | test =>
    simp only [testStep]
    cases hp : pred s.digest s.difficulty with
    | true => simp [State.setPass, State.setResult, State.setCtrl]
    | false =>
      rw [if_neg Bool.false_ne_true]
      by_cases h0 : s.counter + 1 = 0
      · rw [if_pos h0]
        right; right; right; left
        exact ⟨trivial, rfl, h0, by rw [h0]; rfl⟩
      · rw [if_neg h0]
        right; right; right; right
        exact ⟨trivial, rfl, h0, rfl⟩
  | found => simp
  | exhausted => simp

/-- Everything a SHA step can do. -/
theorem shaStep_cases (s : State) :
    (s.req = none ∧ shaStep s = s) ∨
    (∃ m, s.req = some m ∧ shaStep s = { s with digest := sha256 m, req := none, ctrl := .test }) := by
  unfold shaStep
  cases hr : s.req with
  | none => simp
  | some m => right; exact ⟨m, rfl, rfl⟩

/-- The counter after COUNTER is one more, unless the space is used up. -/
theorem Count.succ_eq_zero_iff (c : Count) : c + 1 = 0 ↔ c.toNat = 2 ^ 64 - 1 := by
  have hs : (c + 1).toNat = (c.toNat + 1) % 2 ^ 64 := BitVec.toNat_add c 1
  have hl := c.isLt
  constructor
  · intro h
    rw [h] at hs
    have h0 : (0 : Count).toNat = 0 := rfl
    omega
  · intro h
    apply BitVec.eq_of_toNat_eq
    rw [hs, h]
    rfl

theorem Count.toNat_succ {c : Count} (h : c + 1 ≠ 0) : (c + 1).toNat = c.toNat + 1 := by
  have h' : c.toNat ≠ 2 ^ 64 - 1 := fun e => h ((Count.succ_eq_zero_iff c).mpr e)
  have hs : (c + 1).toNat = (c.toNat + 1) % 2 ^ 64 := BitVec.toNat_add c 1
  have hl := c.isLt
  omega

end Sys2Proof.Machine
end

