-- ==== Sys2Proof/Laws/Step.lean ====
section
/-! SUPPORT. What an instruction and a step can do, said once. -/

namespace Sys2Proof.Machine

/-- Choosing an agent changes nothing but the choice. -/
theorem advance_eq (s : State) : ∃ l n, advance s = { s with schedule := l, draws := n } := by
  unfold advance
  split
  · next l _ => exact ⟨l, s.draws, rfl⟩
  · exact ⟨s.schedule, s.draws + 1, rfl⟩

/-- Everything a bus read can do to the state. -/
theorem execRd_cases (off : Word) (s : State) :
    (execRd off s = .next { s with rdata := readWord (target s.maxPay off) s } ∨
      execRd off s = .next { s with errAccess := true, rdata := 0 }) := by
  unfold execRd
  cases target s.maxPay off <;>
    first
    | (left; rfl)
    | (right; simp [readEffect, readWord, State.raise, State.setRdata])

/-- Everything a command can do: nothing, CHECK's, SEARCH's and CLEAR's effects, or one error bit. -/
theorem execCommand_cases (v : Word) (s : State) :
    execCommand v s = .next s ∨
    (s.busy = false ∧ decodeCmd v = .check ∧
      execCommand v s = .next { s with pass := pred s.digest s.difficulty }) ∨
    (s.busy = false ∧ s.plen.toNat ≤ s.maxPay.toNat ∧ decodeCmd v = .search ∧
      execCommand v s = .next { s with counter := 0, result := 0, pass := false, ctrl := .issue }) ∨
    (decodeCmd v = .clear ∧
      (s.done = true ∧ execCommand v s = .next { s.clearErrors with ctrl := .idle } ∨
        s.done = false ∧ execCommand v s = .next s.clearErrors)) ∨
    ∃ e, execCommand v s = .next (s.raise e) := by
  unfold execCommand
  cases hd : decodeCmd v with
  | nop => left; rfl
  | check =>
    simp only [execCheck]
    cases hb : s.busy
    · right; left; simp [State.setPass]
    · right; right; right; right; exact ⟨.busy, by simp⟩
  | search =>
    simp only [execSearch]
    cases hb : s.busy
    · by_cases hp : s.maxPay.toNat < s.plen.toNat
      · right; right; right; right; exact ⟨.param, by simp [hp]⟩
      · right; right; left
        exact ⟨rfl, by omega, trivial, by
          simp [hp, startSearch, State.setCounter, State.setResult, State.setPass, State.setCtrl]⟩
    · right; right; right; right; exact ⟨.busy, by simp⟩
  | clear =>
    right; right; right; left
    refine ⟨rfl, ?_⟩
    simp only [execClear]
    cases hd : s.done <;> simp [State.setCtrl]
  | illegal => right; right; right; right; exact ⟨.cmd, rfl⟩

/-- A write that BUSY locks out (R18) is done, or raises ERR_BUSY. -/
theorem unlessBusy_cases (s t : State) :
    (s.busy = false ∧ unlessBusy s t = t) ∨ unlessBusy s t = s.raise .busy := by
  unfold unlessBusy
  cases s.busy
  · exact Or.inl ⟨rfl, rfl⟩
  · exact Or.inr rfl

/-- Everything a bus write can do to the state. -/
theorem execWr_cases (off v : Word) (s : State) :
    (off.toNat = 0 ∧ execWr off v s = execCommand v s) ∨
    (s.busy = false ∧ execWr off v s = .next { s with difficulty := v }) ∨
    (s.busy = false ∧ execWr off v s = .next { s with plen := v }) ∨
    (s.busy = false ∧ ∃ o, o + 4 ≤ 32 ∧ execWr off v s = .next { s with digest := writeDigWord s.digest o v }) ∨
    (s.busy = false ∧ ∃ o, o % 4 = 0 ∧ o < s.maxPay.toNat ∧ execWr off v s = .next (s.writePayWord o v)) ∨
    ∃ e, execWr off v s = .next (s.raise e) := by
  unfold execWr
  have ht := target_sound s.maxPay off
  generalize target s.maxPay off = t at ht
  cases t with
  | ctrl => exact Or.inl ⟨ht, rfl⟩
  | difficulty =>
    rcases unlessBusy_cases s (s.setDifficulty v) with ⟨hb, e⟩ | e <;> simp only [e]
    · exact Or.inr (Or.inl ⟨hb, rfl⟩)
    · tauto
  | plen =>
    rcases unlessBusy_cases s (s.setPlen v) with ⟨hb, e⟩ | e <;> simp only [e]
    · exact Or.inr (Or.inr (Or.inl ⟨hb, rfl⟩))
    · tauto
  | digest o =>
    rcases unlessBusy_cases s (s.setDigest (writeDigWord s.digest o v)) with ⟨hb, e⟩ | e <;> simp only [e]
    · exact Or.inr (Or.inr (Or.inr (Or.inl ⟨hb, o, ht, rfl⟩)))
    · tauto
  | payload o =>
    obtain ⟨h4, ho⟩ := ht
    rcases unlessBusy_cases s (s.writePayWord o v) with ⟨hb, e⟩ | e <;> simp only [e]
    · exact Or.inr (Or.inr (Or.inr (Or.inr (Or.inl ⟨hb, o, h4, ho, rfl⟩))))
    · tauto
  | misaligned | status | counterLo | counterHi | resultLo | resultHi | maxPay | reserved => simp
/-- What an instruction `i` can do to a state `s`: one constructor for each effect the spec gives a command or a transaction. -/
inductive HostEffect (i : Instr) (s : State) : State → Prop where
  | nothing : HostEffect i s s
  | read (w : Word) : HostEffect i s { s with rdata := w }
  | readError : HostEffect i s { s with errAccess := true, rdata := 0 }
  | check (hb : s.busy = false) (hi : i = .check ∨ i = .wr 0x000#32 0x00000001#32) :
      HostEffect i s { s with pass := pred s.digest s.difficulty }
  | search (hb : s.busy = false) (hp : s.plen.toNat ≤ s.maxPay.toNat)
      (hi : i = .search ∨ i = .wr 0x000#32 0x00000002#32) :
      HostEffect i s { s with counter := 0, result := 0, pass := false, ctrl := .issue }
  | clearDone (hd : s.done = true) (hi : i = .clear ∨ i = .wr 0x000#32 0x00000003#32) :
      HostEffect i s { s.clearErrors with ctrl := .idle }
  | clear (hd : s.done = false) (hi : i = .clear ∨ i = .wr 0x000#32 0x00000003#32) : HostEffect i s s.clearErrors
  | raised (e : ErrBit) : HostEffect i s (s.raise e)
  | difficulty (hb : s.busy = false) (v : Word) : HostEffect i s { s with difficulty := v }
  | plen (hb : s.busy = false) (v : Word) : HostEffect i s { s with plen := v }
  | digest (hb : s.busy = false) (d : Digest) : HostEffect i s { s with digest := d }
  | payload (hb : s.busy = false) (o : Nat) (v : Word) (h4 : o % 4 = 0) (ho : o < s.maxPay.toNat) :
      HostEffect i s (s.writePayWord o v)

/-- Every instruction has a next state, and it is one of `HostEffect`'s. -/
theorem exec_effect (i : Instr) (s : State) : ∃ t, exec i s = .next t ∧ HostEffect i s t := by
  have err : ∀ (off : Word), ∃ t, execRd off s = .next t ∧ HostEffect i s t := fun off => by
    rcases execRd_cases off s with e | e
    · exact ⟨_, e, .read _⟩
    · exact ⟨_, e, .readError⟩
  cases i with
  | nop => exact ⟨s, rfl, .nothing⟩
  | check =>
    cases hb : s.busy
    · exact ⟨_, by simp [exec, execCheck, hb, State.setPass], .check hb (Or.inl rfl)⟩
    · exact ⟨s.raise .busy, by simp [exec, execCheck, hb], .raised _⟩
  | search =>
    cases hb : s.busy
    · by_cases hp : s.maxPay.toNat < s.plen.toNat
      · exact ⟨s.raise .param, by simp [exec, execSearch, hb, hp], .raised _⟩
      · exact ⟨startSearch s, by simp [exec, execSearch, hb, hp], .search hb (by omega) (Or.inl rfl)⟩
    · exact ⟨s.raise .busy, by simp [exec, execSearch, hb], .raised _⟩
  | clear =>
    cases hd : s.done
    · exact ⟨s.clearErrors, by simp [exec, execClear, hd], .clear hd (Or.inl rfl)⟩
    · exact ⟨s.clearErrors.setCtrl .idle, by simp [exec, execClear, hd], .clearDone hd (Or.inl rfl)⟩
  | rd off => exact err off
  | wr off v =>
    rcases execWr_cases off v s with ⟨h0, h⟩ | ⟨hb, h⟩ | ⟨hb, h⟩ | ⟨hb, o, _, h⟩ | ⟨hb, o, h4, ho, h⟩ | ⟨e, h⟩
    · obtain rfl : off = 0x000#32 := BitVec.eq_of_toNat_eq h0
      rcases execCommand_cases v s with e | ⟨hb, hv, e⟩ | ⟨hb, hp, hv, e⟩ | ⟨hv, e⟩ | ⟨x, e⟩
      · exact ⟨_, h.trans e, .nothing⟩
      · obtain rfl := decodeCmd_check hv
        exact ⟨_, h.trans e, .check hb (Or.inr rfl)⟩
      · obtain rfl := decodeCmd_search hv
        exact ⟨_, h.trans e, .search hb hp (Or.inr rfl)⟩
      · obtain rfl := decodeCmd_clear hv
        rcases e with ⟨hd, e⟩ | ⟨hd, e⟩
        · exact ⟨_, h.trans e, .clearDone hd (Or.inr rfl)⟩
        · exact ⟨_, h.trans e, .clear hd (Or.inr rfl)⟩
      · exact ⟨_, h.trans e, .raised x⟩
    · exact ⟨_, h, .difficulty hb v⟩
    · exact ⟨_, h, .plen hb v⟩
    · exact ⟨_, h, .digest hb _⟩
    · exact ⟨_, h, .payload hb o v h4 ho⟩
    · exact ⟨_, h, .raised e⟩

/-- The same for a given next state. -/
theorem effect_of_exec {i : Instr} {s t : State} (h : exec i s = .next t) : HostEffect i s t := by
  obtain ⟨u, hu, he⟩ := exec_effect i s
  rw [hu, Host.Outcome.next.injEq] at h
  exact h ▸ he

/-- Everything a step can do: the host's next line, a block step, or reset, after the turn is used up. -/
theorem step_cases {s t : State} (h : step s = .next t) :
    (nextAgent s = .host ∧ hostStep (advance s) = .next t) ∨
    (nextAgent s = .ctrl ∧ t = ctrlStep (advance s)) ∨
    (nextAgent s = .sha ∧ t = shaStep (advance s)) ∨
    (nextAgent s = .platform ∧ t = resetStep (advance s)) := by
  unfold step agentStep at h
  cases ha : nextAgent s <;> simp only [ha, Host.Outcome.next.injEq] at h
  · left; exact ⟨rfl, h⟩
  · right; left; exact ⟨rfl, h.symm⟩
  · right; right; left; exact ⟨rfl, h.symm⟩
  · right; right; right; exact ⟨rfl, h.symm⟩

/-- Everything a host step can do: nothing, one instruction with its line used up, or one read of a poll whose line may
stay. -/
theorem hostStep_cases {s t : State} (h : hostStep s = .next t) :
    (s.hostOps = [] ∧ t = s) ∨
    (∃ x rest, s.hostOps = .tx x :: rest ∧ exec (decodeBustx x) (s.setHostOps rest) = .next t) ∨
    (∃ off mask value rest u, s.hostOps = .poll off mask value :: rest ∧ execRd off s = .next u ∧
      (u.rdata &&& mask = value ∧ t = u.setHostOps rest ∨ u.rdata &&& mask ≠ value ∧ t = u)) := by
  unfold hostStep at h
  cases ho : s.hostOps with
  | nil => simp only [ho, Host.Outcome.next.injEq] at h; left; exact ⟨rfl, h.symm⟩
  | cons op rest =>
    cases op with
    | tx x => right; left; exact ⟨x, rest, rfl, by simpa only [ho] using h⟩
    | poll off mask value =>
      right; right
      simp only [ho, exec] at h
      refine ⟨off, mask, value, rest, ?_⟩
      rcases execRd_cases off s with e | e <;> rw [e] at h ⊢ <;> simp only [Host.Outcome.next.injEq] at h <;>
        refine ⟨_, rfl, rfl, ?_⟩ <;> split at h
      all_goals first
        | (left; exact ⟨‹_›, h.symm⟩)
        | (right; exact ⟨‹_›, h.symm⟩)

/-- The choice of an agent is outside the block. -/
theorem advance_sameBlock (s : State) : SameBlock s (advance s) := by
  obtain ⟨l, n, e⟩ := advance_eq s
  rw [e]
  exact ⟨rfl, rfl, rfl, rfl, rfl, rfl, rfl, rfl, rfl, rfl⟩

/-- The step of the agent the schedule names. -/
theorem step_scheduled {s : State} {a : Agent} {l : List Agent} (h : s.schedule = a :: l) :
    step s = agentStep a { s with schedule := l } := by
  unfold step nextAgent advance
  rw [h]

/-- A run of `k + 1` steps is a step and a run of `k` steps. -/
theorem host_run_next (M : Host.Core) (k : Nat) (s t : M.State) (h : M.step s = .next t) :
    M.run (k + 1) s = M.run k t := by
  rw [Host.Core.run, h]

/-- The same for this machine. -/
theorem run_next {s t : State} (k : Nat) (h : step s = .next t) :
    Sys2Proof.core.run (k + 1) s = Sys2Proof.core.run k t :=
  host_run_next Sys2Proof.core k s t h

end Sys2Proof.Machine
end

