-- ==== Sys2Proof/Tests/Slice0.lean ====
section
/-! SUPPORT. Tests. Expected results are the vectors of spec/95_test_vectors.md (P_MAXPAY = 64) or written out from the
rule named; then a witness for the hypotheses of each obligation, at the edges of each clause. -/

namespace Sys2Proof.Tests

open Sys2Proof Sys2Proof.Machine

/-! ## WellFormed -/

/-- R60: reserved opcodes and non-zero RSVD bits. -/
theorem test_cmdLegal_refuses :
    [0x00000004#32, 0x0000000F#32, 0x00000010#32, 0x00000012#32, 0x80000001#32].all (fun w => !cmdLegal w) = true := by
  decide

theorem test_cmdLegal_accepts : [0#32, 1#32, 2#32, 3#32].all cmdLegal = true := by decide

/-- R61: 65 bits. -/
theorem test_recordLegal_refuses : recordLegal (2 ^ 65) = false ∧ recordLegal (2 ^ 65 - 1) = true := by decide

/-- R8: a multiple of 4 from 4 to 0xFFFFF000. -/
theorem test_capacityLegal_refuses :
    [0#32, 2#32, 6#32, 0xFFFFF004#32].all (fun c => !capacityLegal c) = true ∧
    [4#32, 64#32, 0xFFFFF000#32].all capacityLegal = true := by decide

/-! ## Decode: words written out bit by bit -/

/-- R58, R59: `RSVD` (28 zeros) then `OP`. -/
theorem test_decode_commands :
    decodeTableWord 32 0b0000000000000000000000000000_0000 = some .nop ∧
    decodeTableWord 32 0b0000000000000000000000000000_0001 = some .check ∧
    decodeTableWord 32 0b0000000000000000000000000000_0010 = some .search ∧
    decodeTableWord 32 0b0000000000000000000000000000_0011 = some .clear ∧
    decodeTableWord 32 0b0000000000000000000000000001_0000 = none ∧
    decodeTableWord 32 0b0000000000000000000000000000_0100 = none := by decide

/-- R61: `rw`, `off`, `wdata`. RD STATUS; RD 0x80000001 with its ignored data all ones; WR PAY(0), 0x00636261. -/
theorem test_decode_transactions :
    decodeTableWord 65 0b0_00000000000000000000000000000100_00000000000000000000000000000000 = some (.rd 0x004#32) ∧
    decodeTableWord 65 0b0_10000000000000000000000000000001_11111111111111111111111111111111 =
      some (.rd 0x80000001#32) ∧
    decodeTableWord 65 0b1_00000000000000000001000000000000_00000000011000110110001001100001 =
      some (.wr 0x1000#32 0x00636261#32) := by decide

/-- What is no word of a row. -/
theorem test_decode_rejects :
    decode [0x04, 0, 0, 0] = .error .illegalCommand ∧ decode [0, 0, 0, 0, 0, 0, 0, 0, 2] = .error .notATransaction ∧
    decode [0, 0, 0] = .error .badLength ∧ decodeTableWord 65 (2 ^ 65) = none ∧ decodeTableWord 16 0 = none := by
  decide

/-- P2 line 1: `CMD SEARCH` is 1_00000000_00000002. -/
theorem test_deliver_search : (Instr.deliver .search).toNat = 0x10000000000000002 := by decide

/-! ## Small states -/

/-- Clean IDLE with P_MAXPAY = 64. -/
def clean : State := State.resetWith 64#32

/-- A block of 64 payload bytes in a controller state, with its difficulty and counter. -/
def blk (c : CtrlState) (n : Word) (k : Count) : State := { clean with ctrl := c, difficulty := n, counter := k }

/-- `CMD SEARCH` accepted, and the search waiting for a SHA response, for the empty payload. -/
def waiting (n : Word) (k : Count) : State := { blk .wait n k with req := some (le64 k) }

/-- The response has arrived. -/
def testing (n : Word) (k : Count) : State := { blk .test n k with digest := sha256 (le64 k) }

/-- The digest 00 00 1F FF 00 .. 00. -/
def dig19 : Digest := writeDigWord (Vector.replicate 32 0) 0 0xFF1F0000#32

/-- The digest of 31 bytes `b` and a last byte `e`. -/
def digEnds (b e : Byte) : Digest := (Vector.replicate 32 b).setIfInBounds 31 e

/-- The state after one instruction. -/
def after (i : Instr) (s : State) : Option State :=
  match exec i s with
  | .next t => some t
  | .fault _ => none
  | .refused _ => none

/-- STATUS after one instruction. -/
def statusAfter (i : Instr) (s : State) : Option Word := (after i s).map State.statusWord

/-- The state after one step. -/
def stepped (s : State) : Option State :=
  match step s with
  | .next t => some t
  | .fault _ => none
  | .refused _ => none

/-- Gives the turn to one agent. -/
def turn (a : Agent) (s : State) : State := { s with schedule := [a] }

/-- Gives the host the turn and one line. -/
def hostTurn (op : HostOp) (s : State) : State := { s with schedule := [.host], hostOps := [op] }

/-! ## The predicate (V1 to V26) -/

theorem test_pred_edges :
    pred (Vector.replicate 32 0xFF) 0#32 = true ∧ pred (Vector.replicate 32 0) 255#32 = true ∧
    pred (Vector.replicate 32 0) 256#32 = true ∧ pred (Vector.replicate 32 0) 257#32 = false ∧
    pred (Vector.replicate 32 0) 264#32 = false ∧ pred (Vector.replicate 32 0) 0xFFFFFFFF#32 = false ∧
    pred (digEnds 0 0x01) 255#32 = true ∧ pred (digEnds 0 0x01) 256#32 = false ∧
    pred (digEnds 0 0x80) 248#32 = true ∧ pred (digEnds 0 0x80) 249#32 = false := by decide

theorem test_pred_masks :
    pred dig19 19#32 = true ∧ pred dig19 20#32 = false ∧ leadingZeros dig19 = 19 ∧
    pred (digEnds 0xFF 0xFF) 1#32 = false ∧ leadingZeros (digEnds 0 0x02) = 254 ∧
    leadingZeros (Vector.replicate 32 0) = 256 := by decide +kernel

/-! ## Commands -/

/-- V30, V31, V32, V33, V34. -/
theorem test_check :
    statusAfter .check clean = some 0x80#32 ∧
    statusAfter .check { blk .idle 20 0 with digest := dig19, pass := true } = some 0#32 ∧
    statusAfter .check { blk .found 257 0 with pass := true } = some 0x34#32 ∧
    statusAfter .check (blk .exhausted 0 0) = some 0xD5#32 ∧
    statusAfter .check (blk .wait 0 0) = some 0x20A#32 := by decide

/-- V36, V37, V38, V39, V39a, V39b, V39c, V39d. -/
theorem test_search :
    statusAfter .search clean = some 0x9#32 ∧
    (after .search { blk .found 8 477 with result := 477, pass := true }).map
        (fun t => (t.statusWord, t.counter, t.result)) = some (0x9#32, 0#64, 0#64) ∧
    statusAfter .search { blk .exhausted 0 0 with errCmd := true, plen := 3 } = some 0x109#32 ∧
    statusAfter .search { clean with plen := 64 } = some 0x9#32 ∧
    statusAfter .search { clean with plen := 65 } = some 0x400#32 ∧
    statusAfter .search { clean with plen := 0xFFFFFFFF#32 } = some 0x400#32 ∧
    (after .search (blk .issue 0 7)).map (fun t => (t.statusWord, t.counter)) = some (0x209#32, 7#64) ∧
    statusAfter .search (blk .idle 0xFFFFFFFF#32 0) = some 0x9#32 := by decide

/-- V54, V55, V56, V57, V58. -/
theorem test_clear_nop :
    statusAfter .clear { clean with errCmd := true, errBusy := true, errParam := true, errAccess := true } = some 0#32 ∧
    (after .clear { blk .found 8 477 with result := 477, pass := true, errCmd := true }).map
        (fun t => (t.statusWord, t.result)) = some (0x80#32, 477#64) ∧
    statusAfter .clear (blk .exhausted 0 0) = some 0#32 ∧
    statusAfter .clear { blk .wait 0 0 with errBusy := true } = some 0xA#32 ∧
    statusAfter .nop { blk .wait 0 0 with errBusy := true } = some 0x20A#32 := by decide

/-! ## Transactions -/

/-- V60, V61, V62, V66, V67, V69c. -/
theorem test_rd :
    (after (.rd 0x000#32) clean).map State.rdata = some 0#32 ∧
    (after (.rd 0x020#32) clean).map State.rdata = some 0x40#32 ∧
    statusAfter (.rd 0x001#32) clean = some 0x800#32 ∧
    [0x024#32, 0x060#32, 0x1040#32].all
        (fun o => (after (.rd o) { clean with rdata := 1 }).map (fun t => (t.statusWord, t.rdata)) == some (0x800#32, 0#32))
      = true ∧
    statusAfter (.rd 0x05C#32) clean = some 0#32 ∧ statusAfter (.rd 0x103C#32) clean = some 0#32 ∧
    (after (.rd 0x010#32) (blk .issue 0 0x0102030405060708#64)).map (fun t => (t.statusWord, t.rdata))
      = some (0x9#32, 0x05060708#32) := by decide

/-- V59a, V59c, V63, V64, V65, V68, V69, V69a, V69b, V69d; R42: the digest's first bit is DIGEST0 bit 7. -/
theorem test_wr :
    statusAfter (.wr 0x000#32 0x12#32) clean = some 0x100#32 ∧ statusAfter (.wr 0x000#32 7#32) (blk .wait 0 0) = some 0x10A#32 ∧
    (after (.wr 0x00A#32 5#32) clean).map (fun t => (t.statusWord, t.difficulty)) = some (0x800#32, 0#32) ∧
    statusAfter (.wr 0x004#32 0xFFFFFFFF#32) clean = some 0x800#32 ∧ statusAfter (.wr 0x01C#32 1#32) clean = some 0x800#32 ∧
    ((after (.wr 0x1000#32 0x00636261#32) clean).bind (after (.rd 0x1000#32))).map
        (fun t => (t.rdata, [t.payByte 0, t.payByte 1, t.payByte 2, t.payByte 3]))
      = some (0x00636261#32, [0x61#8, 0x62#8, 0x63#8, 0#8]) ∧
    (after (.wr 0x008#32 0#32) (blk .issue 8 0)).map (fun t => (t.statusWord, t.difficulty)) = some (0x209#32, 8#32) ∧
    statusAfter (.wr 0x004#32 0#32) (blk .issue 0 0) = some 0x809#32 ∧
    statusAfter (.wr 0x00E#32 0#32) (blk .issue 0 0) = some 0x809#32 ∧
    statusAfter (.wr 0x2000#32 0#32) (blk .issue 0 0) = some 0x809#32 ∧
    (after (.wr 0x040#32 0x80#32) clean).map (fun t => digestBit t.digest 0) = some true := by decide

/-! ## Steps -/

/-- V40, V41, V42, V43, V45; the digest is all zero. -/
theorem test_testStep :
    (fun t : State => (t.statusWord, t.counter, t.result)) (testStep (blk .test 257 (BitVec.allOnes 64)))
      = (0x55#32, 0#64, 0#64) ∧
    (fun t : State => (t.statusWord, t.counter, t.result)) (testStep (blk .test 0 (BitVec.allOnes 64)))
      = (0xB4#32, BitVec.allOnes 64, BitVec.allOnes 64) ∧
    (fun t : State => (t.statusWord, t.counter)) (testStep (blk .test 257 5)) = (0x9#32, 6#64) ∧
    (fun t : State => (t.statusWord, t.counter)) (testStep (blk .test 257 0xFFFFFFFF#64)) = (0x9#32, 0x100000000#64) := by
  decide

/-- V53, and the STATUS of WAIT. -/
theorem test_issueStep :
    (fun t : State => (t.statusWord, t.req))
        (issueStep
          { blk .issue 0 0x0102030405060708#64 with
            plen := 5
            payload := [(0, 1#8), (1, 2#8), (2, 3#8), (3, 4#8), (4, 5#8), (5, 6#8), (6, 7#8), (7, 8#8)] })
      = (0xA#32, some [1, 2, 3, 4, 5, 8, 7, 6, 5, 4, 3, 2, 1]) := by decide

/-- T1: sha256(le64(0)), as DIGEST0, DIGEST1 and DIGEST7 read after the response. -/
theorem test_respondStep :
    (fun t : State => (t.statusWord, t.req, digWord t.digest 0, digWord t.digest 4, digWord t.digest 28))
        (shaStep (waiting 0 0))
      = (0xB#32, none, 0xF57055AF#32, 0x7A0B81A1#32, 0xFC3DE8E0#32) := by decide +kernel

/-- The state before V80. -/
def v80 : State :=
  { waiting 257 12345 with errBusy := true, plen := 3, payload := [(0, 0x61#8), (1, 0x62#8), (2, 0x63#8), (3, 0#8)] }

/-- V80. -/
theorem test_resetStep :
    (fun t : State => (t.statusWord, t.difficulty, t.plen, t.counter, t.payWord 0)) (resetStep v80)
      = (0#32, 0#32, 0#32, 0#64, 0x00636261#32) ∧
    (resetStep v80).req = none ∧ (resetStep v80).irq = false := by decide

/-- V72: the image of 477. -/
theorem test_resultImage :
    State.resultImage { clean with result := 477 } = [0xDD#8, 1#8, 0#8, 0#8, 0#8, 0#8, 0#8, 0#8] := by decide

/-- R65: `WAITDONE` stays while BUSY and goes once DONE. -/
theorem test_waitDone :
    (stepped (hostTurn waitDone (waiting 0 0))).map State.hostOps = some [waitDone] ∧
    (stepped (hostTurn waitDone (blk .found 0 0))).map State.hostOps = some [] := by decide

/-- The host's way in: the next step after placing the word of `CMD CHECK` and of `RD MAXPAY`. -/
theorem test_withFetchWord :
    (stepped (State.reset.withFetchWord 32 1)).map State.pass = some true ∧
    (stepped (State.reset.withFetchWord 65 0x2000000000)).map State.rdata = some 0x40#32 := by decide

/-! ## Witnesses: states that meet the invariant -/

theorem capacity_64 : capacityLegal 64#32 = true := by decide

theorem clean_inv : clean.Inv :=
  ⟨by decide, by decide, by decide, by decide, by decide, by decide, by decide, by decide, by decide, by decide⟩

/-- A payload and a short PLEN, IDLE. -/
def loaded : State := { clean with plen := 3, payload := [(0, 0x61#8), (1, 0x62#8), (2, 0x63#8), (3, 0#8)] }

theorem loaded_inv : loaded.Inv :=
  ⟨by decide, by decide, by decide, by decide, by decide, by decide, by decide, by decide, by decide, by decide⟩

theorem issue_inv (n : Word) (k : Count) (l : List Agent) : State.Inv { blk .issue n k with schedule := l } :=
  ⟨by simp [blk, clean, State.resetWith], fun _ => Nat.zero_le _, by simp [blk], by simp [blk], by simp [blk], by simp [blk],
    fun _ => ⟨rfl, rfl⟩, capacity_64, rfl, rfl⟩

theorem waiting_inv (n : Word) (k : Count) : (waiting n k).Inv :=
  ⟨by simp [waiting, blk], fun _ => Nat.zero_le _, by simp [waiting, blk], by simp [waiting, blk], fun _ => rfl,
    by simp [waiting, blk], fun _ => ⟨rfl, rfl⟩, capacity_64, rfl, rfl⟩

theorem testing_inv (n : Word) (k : Count) (l : List Agent) : State.Inv { testing n k with schedule := l } :=
  ⟨by simp [testing, blk, clean, State.resetWith], fun _ => Nat.zero_le _, by simp [testing, blk], by simp [testing, blk],
    by simp [testing, blk], fun _ => rfl, fun _ => ⟨rfl, rfl⟩, capacity_64, rfl, rfl⟩

theorem found_inv (n : Word) (k : Count) (l : List Agent) (o : List HostOp) :
    State.Inv { blk .found n k with result := k, pass := true, schedule := l, hostOps := o } :=
  ⟨by simp [blk, clean, State.resetWith], by simp [State.busy, blk], fun _ => rfl, by simp [blk], by simp [blk],
    by simp [blk], by simp [State.busy, blk], capacity_64, rfl, rfl⟩

theorem exhausted_inv : (blk .exhausted 257 0).Inv :=
  ⟨by decide, by decide, by decide, by decide, by decide, by decide, by decide, by decide, by decide, by decide⟩

/-! ## Witnesses: hypotheses of the obligations, in their order -/

theorem witness_IllegalCommandRaisesErrCmdOnly :
    [0x4#32, 0xF#32, 0x10#32, 0x80000001#32, 0xFFFFFFFF#32].all (fun w => decodeCmd w == .illegal) = true ∧
    decodeCmd 3#32 ≠ .illegal := by decide

theorem witness_EveryRecordIsATransaction :
    (wrTx 0x1000#32 0xFFFFFFFF#32).getLsbD 64 = true ∧ (0xFFFFFFFFFFFFFFFF#65).getLsbD 64 = false := by decide

theorem witness_CounterBytesLittleEndian :
    (0 < 8 ∧ (le64 0x0102030405060708#64)[0]? = some 0x08#8) ∧
    (7 < 8 ∧ (le64 0x0102030405060708#64)[7]? = some 0x01#8) := by decide

theorem witness_StepRunsTheDecodedTransaction :
    ∃ (s : State) (t : BusTx) (rest : List HostOp),
      nextAgent s = .host ∧ s.hostOps = .tx t :: rest ∧
      decode (leBytes 9 t.toNat) = .ok (.wr 0x008#32 0x13#32) :=
  ⟨hostTurn (.tx 0x10000000800000013#65) clean, 0x10000000800000013#65, [], rfl, rfl, by decide⟩

theorem witness_CommandRunsWhenWrittenToCtrl :
    Instr.cmdWord .nop = some 0#32 ∧ Instr.cmdWord .check = some 1#32 ∧ Instr.cmdWord .search = some 2#32 ∧
    Instr.cmdWord .clear = some 3#32 ∧
    ∃ s : State, nextAgent s = .host ∧ s.hostOps = .tx (wrTx 0x000#32 3#32) :: [] :=
  ⟨rfl, rfl, rfl, rfl, hostTurn (.tx (wrTx 0x000#32 3#32)) clean, rfl, rfl⟩

theorem witness_StepOfTheOtherAgents :
    nextAgent (turn .ctrl clean) = .ctrl ∧ nextAgent (turn .sha clean) = .sha ∧
    nextAgent (turn .platform clean) = .platform ∧ (nextAgent (turn .host clean) = .host ∧ (turn .host clean).hostOps = []) ∧
    (turn .sha clean).schedule = .sha :: [] ∧ clean.schedule = [] := by decide

theorem witness_PollRepeatsUntilMatch :
    (∃ s u : State, nextAgent s = .host ∧ s.hostOps = .poll 0x004#32 0x10#32 0x10#32 :: [] ∧
      exec (.rd 0x004#32) (advance s) = .next u ∧ u.rdata &&& 0x10#32 = 0x10#32) ∧
    ∃ s u : State, nextAgent s = .host ∧ s.hostOps = .poll 0x004#32 0x10#32 0x10#32 :: [] ∧
      exec (.rd 0x004#32) (advance s) = .next u ∧ u.rdata &&& 0x10#32 ≠ 0x10#32 :=
  ⟨⟨hostTurn waitDone (blk .found 0 0), _, rfl, rfl, rfl, by decide⟩,
    ⟨hostTurn waitDone clean, _, rfl, rfl, rfl, by decide⟩⟩

theorem witness_FetchWordRunsNext :
    decodeTableWord 32 0x2 = some .search ∧ decodeTableWord 72 0x10000000000000002 = some (.wr 0#32 2#32) := by decide

theorem witness_ResetStep : ∃ s t : State, nextAgent s = .platform ∧ step s = .next t ∧ s.busy = true :=
  ⟨turn .platform (waiting 257 12345), _, rfl, rfl, rfl⟩

theorem witness_ResetStateValues : 31 < 32 ∧ capacityLegal 64#32 = true := by decide

theorem witness_PredTestsTheFirstBits :
    (255 < (256#32).toNat ∧ pred (Vector.replicate 32 0) 256#32 = true) ∧ pred (digEnds 0 0x01) 256#32 = false := by decide

theorem witness_PredIsLeadingZeroCount :
    (254 < leadingZeros (digEnds 0 0x01) ∧ leadingZeros (digEnds 0 0x01) < 256) ∧ leadingZeros (digEnds 0xFF 0xFF) = 0 := by
  decide +kernel

/-- T2: with the empty payload, counter 0 solves difficulty 0 and counter 1 is the least that solves difficulty 1. -/
theorem solution_zero : IsSolution [] 0#32 0#64 := ⟨rfl, fun _ h => absurd (BitVec.lt_def.mp h) (Nat.not_lt_zero _)⟩

theorem solution_one : IsSolution [] 1#32 1#64 := by
  refine ⟨by decide +kernel, fun c h => ?_⟩
  obtain rfl : c = 0#64 := BitVec.eq_of_toNat_eq (Nat.lt_one_iff.mp (BitVec.lt_def.mp h))
  decide +kernel

theorem witness_PredAndSolutionsMonotone :
    (pred dig19 19#32 = true ∧ 18#32 ≤ 19#32) ∧
    0#32 ≤ 1#32 ∧ IsSolution [] 1#32 1#64 :=
  ⟨by decide, by decide, solution_one⟩

theorem witness_PredAtTheEdges :
    257 ≤ (257#32).toNat ∧ 257 ≤ (0xFFFFFFFF#32).toNat ∧ ¬ 257 ≤ (256#32).toNat ∧ 31 < 32 := by decide

theorem witness_CheckWritesPass : clean.busy = false ∧ (waiting 0 0).busy = true := by decide

theorem witness_SearchStartsOrIsRefused :
    (State.busy { clean with plen := 64 } = false ∧ (64#32).toNat ≤ clean.maxPay.toNat) ∧ (blk .test 0 0).busy = true ∧
    (State.busy { clean with plen := 65 } = false ∧ clean.maxPay.toNat < (65#32).toNat) := by decide

theorem witness_ClearAcknowledges :
    (blk .found 0 0).ctrl = .found ∧ (blk .exhausted 0 0).ctrl = .exhausted ∧
    ((blk .wait 0 0).ctrl ≠ .found ∧ (blk .wait 0 0).ctrl ≠ .exhausted) := by decide

/-- The first and last offset of each clause. -/
theorem witness_ReadReturnsTheWord :
    ((0x001#32).toNat % 4 ≠ 0 ∧ (0xFFFFFFFF#32).toNat % 4 ≠ 0) ∧
    (0 < 8 ∧ (0x040#32).toNat = 0x040 + 4 * 0) ∧ (7 < 8 ∧ (0x05C#32).toNat = 0x040 + 4 * 7) ∧
    (4 * 0 < clean.maxPay.toNat ∧ (0x1000#32).toNat = 0x1000 + 4 * 0) ∧
    (4 * 15 < clean.maxPay.toNat ∧ (0x103C#32).toNat = 0x1000 + 4 * 15) ∧
    ((0x024#32).toNat % 4 = 0 ∧ 0x024 ≤ (0x024#32).toNat ∧ (0x024#32).toNat < 0x040) ∧
    ((0x03C#32).toNat % 4 = 0 ∧ 0x024 ≤ (0x03C#32).toNat ∧ (0x03C#32).toNat < 0x040) ∧
    ((0x060#32).toNat % 4 = 0 ∧ 0x060 ≤ (0x060#32).toNat ∧ (0x060#32).toNat < 0x1000) ∧
    ((0xFFC#32).toNat % 4 = 0 ∧ 0x060 ≤ (0xFFC#32).toNat ∧ (0xFFC#32).toNat < 0x1000) ∧
    ((0x1040#32).toNat % 4 = 0 ∧ 0x1000 + clean.maxPay.toNat ≤ (0x1040#32).toNat) ∧
    ((0xFFFFFFFC#32).toNat % 4 = 0 ∧ 0x1000 + clean.maxPay.toNat ≤ (0xFFFFFFFC#32).toNat) := by decide

theorem witness_WriteOutsideTheMapRaisesErrAccess :
    (0x00E#32).toNat % 4 ≠ 0 ∧ (0x004#32).toNat ∈ [0x004, 0x010, 0x014, 0x018, 0x01C, 0x020] ∧
    (0x020#32).toNat ∈ [0x004, 0x010, 0x014, 0x018, 0x01C, 0x020] ∧
    ((0x03C#32).toNat % 4 = 0 ∧ 0x024 ≤ (0x03C#32).toNat ∧ (0x03C#32).toNat < 0x040) ∧
    ((0x1040#32).toNat % 4 = 0 ∧ 0x1000 + clean.maxPay.toNat ≤ (0x1040#32).toNat) := by decide

theorem witness_WriteWhileBusyIsDropped :
    (blk .issue 0 0).busy = true ∧
    (0x008#32 = 0x008#32 ∧ 0x00C#32 = 0x00C#32) ∧ (7 < 8 ∧ (0x05C#32).toNat = 0x040 + 4 * 7) ∧
    (4 * 15 < (blk .issue 0 0).maxPay.toNat ∧ (0x103C#32).toNat = 0x1000 + 4 * 15) := by decide

theorem witness_WritesWhileIdle :
    clean.busy = false ∧ (blk .exhausted 0 0).busy = false ∧
    (4 * 15 < clean.maxPay.toNat ∧ (0x103C#32).toNat = 0x1000 + 4 * 15) ∧
    (7 < 8 ∧ (0x05C#32).toNat = 0x040 + 4 * 7) ∧ (59 < 4 * 15 ∧ 28 < 32 ∧ 4 * 6 + 4 ≤ 28) := by decide

theorem witness_RepeatedTransactionChangesNothing :
    (∃ t, exec (.rd 0x024#32) clean = .next t) ∧
    (0x008#32 ≠ 0x000#32 ∧ ∃ t, exec (.wr 0x008#32 9#32) clean = .next t) ∧ clean.Inv :=
  ⟨⟨_, rfl⟩, ⟨by decide, _, rfl⟩, clean_inv⟩

theorem witness_IssueStepSendsTheMessage :
    nextAgent (turn .ctrl (blk .issue 8 5)) = .ctrl ∧ (turn .ctrl (blk .issue 8 5)).ctrl = .issue := by decide

theorem witness_ResponseStepWritesTheDigest :
    nextAgent (turn .sha (waiting 8 5)) = .sha ∧ (turn .sha (waiting 8 5)).req = some (le64 5) ∧
    (turn .sha clean).req = none := by decide

/-- A pass, the last counter failing, and the last counter but one failing; the digest is all zero. -/
theorem witness_TestStepStopsOrCountsOn :
    nextAgent (turn .ctrl (blk .test 256 0)) = .ctrl ∧ (turn .ctrl (blk .test 256 0)).ctrl = .test ∧
    pred (blk .test 256 0).digest 256#32 = true ∧
    (pred (blk .test 257 (BitVec.allOnes 64)).digest 257#32 = false ∧ (BitVec.allOnes 64).toNat = 2 ^ 64 - 1) ∧
    (0xFFFFFFFFFFFFFFFE#64).toNat < 2 ^ 64 - 1 := by decide

theorem witness_InvariantHoldsAtReset :
    capacityLegal 4#32 = true ∧ capacityLegal 0xFFFFF000#32 = true ∧ capacityLegal 64#32 = true := by decide

theorem witness_EveryStepKeepsTheInvariant :
    ∃ s t : State, s.Inv ∧ step s = .next t ∧ t.ctrl = .wait :=
  ⟨{ blk .issue 8 0 with schedule := [.ctrl] }, _, issue_inv 8 0 [.ctrl], rfl, rfl⟩

theorem witness_MaxpayNeverChanges : ∃ t, step (turn .platform clean) = .next t := ⟨_, rfl⟩

theorem witness_HostCannotDisturbASearch :
    (waiting 8 5).busy = true ∧ (∃ t, exec .clear (waiting 8 5) = .next t) ∧ ∃ t, exec (.wr 0x1000#32 1#32) (waiting 8 5) = .next t :=
  ⟨rfl, ⟨_, rfl⟩, ⟨_, rfl⟩⟩

/-- One instruction for each outcome: no error bit, one bit, all cleared. -/
theorem witness_AtMostOneErrorIsRaised :
    statusAfter .nop clean = some 0#32 ∧ statusAfter (.rd 0x024#32) clean = some 0x800#32 ∧
    (after .clear { clean with errBusy := true, errParam := true }).map State.errorCount = some 0 := by decide

theorem witness_ErrorBitsAreSticky :
    ∃ s t : State, step s = .next t ∧ nextAgent s = .host ∧ nextAgent s ≠ .platform ∧
      (∀ x rest, s.hostOps = .tx x :: rest → decodeBustx x ≠ .wr 0x000#32 0x00000003#32) ∧
      s.errCmd = true ∧ s.errBusy = true ∧ s.errParam = true ∧ s.errAccess = true := by
  refine ⟨hostTurn (.tx (wrTx 0x000#32 2#32)) { clean with errCmd := true, errBusy := true, errParam := true, errAccess := true },
    _, rfl, rfl, by decide, fun x rest h => ?_, rfl, rfl, rfl, rfl⟩
  have hx : x = wrTx 0x000#32 2#32 := by
    have := (List.cons.inj h).1
    exact (HostOp.tx.inj this).symm
  rw [hx]
  decide

/-- The counter moves: by a TEST step that wraps, by a SEARCH, by reset. -/
theorem witness_CounterMovesByOneOrToZero :
    (∃ s t : State, step s = .next t ∧ nextAgent s = .ctrl ∧ t.counter ≠ s.counter ∧ t.counter = 0) ∧
    (∃ s t : State, step s = .next t ∧ nextAgent s = .host ∧ t.counter ≠ s.counter) ∧
    ∃ s t : State, step s = .next t ∧ nextAgent s = .platform ∧ t.counter ≠ s.counter :=
  ⟨⟨turn .ctrl (blk .test 257 (BitVec.allOnes 64)), _, rfl, rfl, by decide, by decide⟩,
    ⟨hostTurn (.tx (wrTx 0x000#32 2#32)) (blk .found 0 5), _, rfl, rfl, by decide⟩,
    ⟨turn .platform (blk .found 0 5), _, rfl, rfl, by decide⟩⟩

/-- PASS changes: by CHECK, TEST, SEARCH and reset. -/
theorem witness_PassHasFourWriters :
    (∃ s t : State, step s = .next t ∧ nextAgent s = .host ∧ t.ctrl = .idle ∧ t.pass ≠ s.pass) ∧
    (∃ s t : State, step s = .next t ∧ nextAgent s = .ctrl ∧ t.pass ≠ s.pass) ∧
    (∃ s t : State, step s = .next t ∧ nextAgent s = .host ∧ t.ctrl = .issue ∧ t.pass ≠ s.pass) ∧
    ∃ s t : State, step s = .next t ∧ nextAgent s = .platform ∧ t.pass ≠ s.pass :=
  ⟨⟨hostTurn (.tx (wrTx 0x000#32 1#32)) clean, _, rfl, rfl, rfl, by decide⟩,
    ⟨turn .ctrl (blk .test 256 0), _, rfl, rfl, by decide⟩,
    ⟨hostTurn (.tx (wrTx 0x000#32 2#32)) { clean with pass := true }, _, rfl, rfl, rfl, by decide⟩,
    ⟨turn .platform { clean with pass := true }, _, rfl, rfl, by decide⟩⟩

/-- `irq` rises in a TEST step, and falls in SEARCH, CLEAR and reset. -/
theorem witness_IrqIsDone :
    (∃ s t : State, s.Inv ∧ step s = .next t ∧ s.irq = false ∧ t.irq = true) ∧
    (∃ s t : State, s.Inv ∧ step s = .next t ∧ nextAgent s = .host ∧ s.irq = true ∧ t.irq = false ∧ t.ctrl = .issue) ∧
    (∃ s t : State, s.Inv ∧ step s = .next t ∧ nextAgent s = .host ∧ s.irq = true ∧ t.irq = false ∧ t.ctrl = .idle) ∧
    ∃ s t : State, s.Inv ∧ step s = .next t ∧ nextAgent s = .platform ∧ s.irq = true ∧ t.irq = false :=
  ⟨⟨{ testing 0 0 with schedule := [.ctrl] }, _, testing_inv 0 0 _, rfl, rfl, rfl⟩,
    ⟨_, _, found_inv 0 0 [.host] [.tx (wrTx 0x000#32 2#32)], rfl, rfl, rfl, rfl, rfl⟩,
    ⟨_, _, found_inv 0 0 [.host] [.tx (wrTx 0x000#32 3#32)], rfl, rfl, rfl, rfl, rfl⟩,
    ⟨_, _, found_inv 0 0 [.platform] [], rfl, rfl, rfl, rfl⟩⟩

theorem witness_QuiescentUntilCommanded :
    (∃ s t : State, s.Inv ∧ s.busy = false ∧ step s = .next t ∧ nextAgent s = .sha) ∧
    ∃ s t : State, s.Inv ∧ s.busy = false ∧ step s = .next t ∧ t.busy = true :=
  ⟨⟨_, _, found_inv 0 0 [.sha] [], rfl, rfl, rfl⟩,
    ⟨_, _, found_inv 0 0 [.host] [.tx (wrTx 0x000#32 2#32)], rfl, rfl, rfl⟩⟩

theorem witness_AcceptedSearchIsSearching :
    loaded.Inv ∧ loaded.busy = false ∧ loaded.plen.toNat ≤ loaded.maxPay.toNat := ⟨loaded_inv, by decide, by decide⟩

/-- No counter is below 0. -/
theorem none_failed (p : List Byte) (n : Word) : ∀ c : Count, c < 0 → solves p n c = false :=
  fun _ h => absurd (BitVec.lt_def.mp h) (Nat.not_lt_zero _)

theorem issue_searching (n : Word) (l : List Agent) : State.Searching { blk .issue n 0 with schedule := l } [] n :=
  ⟨issue_inv n 0 l, rfl, rfl, rfl, none_failed [] n⟩

theorem testing_searching (n : Word) (l : List Agent) : State.Searching { testing n 0 with schedule := l } [] n :=
  ⟨testing_inv n 0 l, rfl, rfl, rfl, none_failed [] n⟩

/-- One step of a search that goes on, and one that ends it. -/
theorem witness_SearchEndsWithTheLeastSolution :
    (∃ s t : State, s.Searching [] 8#32 ∧
      (∀ j u, j < 1 → Sys2Proof.core.run j s = .next u → State.busy u = true ∧ nextAgent u ≠ .platform) ∧
      Sys2Proof.core.run 1 s = .next t ∧ State.busy t = true) ∧
    ∃ s t : State, s.Searching [] 0#32 ∧
      (∀ j u, j < 1 → Sys2Proof.core.run j s = .next u → State.busy u = true ∧ nextAgent u ≠ .platform) ∧
      Sys2Proof.core.run 1 s = .next t ∧ State.done t = true := by
  refine ⟨⟨_, _, issue_searching 8 [.ctrl], fun j _ hj hu => ?_, rfl, rfl⟩,
    ⟨_, _, testing_searching 0 [.ctrl], fun j _ hj hu => ?_, rfl, rfl⟩⟩
  · obtain rfl := Nat.lt_one_iff.mp hj
    cases hu
    exact ⟨rfl, by decide⟩
  · obtain rfl := Nat.lt_one_iff.mp hj
    cases hu
    exact ⟨rfl, by decide⟩

/-- A run that ends within the first round while the host tries `WR DIFFICULTY, 257` (P6). -/
def disturbed : State :=
  { blk .issue 0 0 with
    schedule := [.ctrl, .host, .sha, .ctrl]
    hostOps := [.tx (wrTx 0x008#32 0x101#32)] }

theorem disturbed_searching : disturbed.Searching [] 0#32 :=
  ⟨⟨by decide, by decide, by decide, by decide, by decide, by simp [disturbed, blk], by decide, by decide, by decide, by decide⟩,
    rfl, rfl, rfl, none_failed [] 0⟩

/-- Two runs of one search of different lengths: one step from TEST, and four steps with a refused host write; and a run that
ends in EXHAUSTED. -/
theorem witness_SearchEndIsDetermined :
    (∃ s t s' t' : State, s.Searching [] 0#32 ∧ s'.Searching [] 0#32 ∧ s.RunEnds 1 t ∧ s'.RunEnds 4 t' ∧
      t.errBusy = false ∧ t'.errBusy = true) ∧
    ∃ s t : State, s.Searching [] 257#32 ∧ s.RunEnds 1 t ∧ t.ctrl = .exhausted := by
  refine ⟨⟨_, _, _, _, testing_searching 0 [.ctrl], disturbed_searching, ⟨fun j _ hj hu => ?_, rfl, rfl⟩,
      ⟨fun j _ hj hu => ?_, rfl, rfl⟩, rfl, rfl⟩,
    ⟨{ testing 257 (BitVec.allOnes 64) with schedule := [.ctrl] }, _,
      ⟨testing_inv _ _ _, rfl, rfl, rfl, fun _ _ => rfl⟩, ⟨fun j _ hj hu => ?_, rfl, rfl⟩, rfl⟩⟩
  · obtain rfl := Nat.lt_one_iff.mp hj
    cases hu
    exact ⟨rfl, by decide⟩
  · interval_cases j <;> cases hu <;> exact ⟨rfl, by decide⟩
  · obtain rfl := Nat.lt_one_iff.mp hj
    cases hu
    exact ⟨rfl, by decide⟩

/-- The agents the search waits for in ISSUE and in WAIT, and one it does not wait for. -/
theorem witness_SearchAdvancesStepByStep :
    (∃ s t : State, s.Inv ∧ s.busy = true ∧ step s = .next t ∧ nextAgent s = .ctrl ∧ s.ctrl ≠ .wait) ∧
    (∃ s t : State, s.Inv ∧ s.busy = true ∧ step s = .next t ∧ nextAgent s = .sha ∧ s.ctrl ≠ .wait) ∧
    ((waiting 8 5).Inv ∧ (waiting 8 5).busy = true ∧ (waiting 8 5).ctrl = .wait) :=
  ⟨⟨_, _, issue_inv 8 5 [.ctrl], rfl, rfl, rfl, by decide⟩, ⟨_, _, issue_inv 8 5 [.sha], rfl, rfl, rfl, by decide⟩,
    ⟨waiting_inv 8 5, rfl, rfl⟩⟩

/-- Difficulty 1: two rounds. -/
theorem witness_SearchFindsAfterItsRounds :
    ∃ s : State, s.Searching [] 1#32 ∧ s.ctrl = .issue ∧ s.counter = 0 ∧ IsSolution [] 1#32 1#64 ∧
      s.schedule = (List.replicate ((1#64).toNat + 1) searchRound).flatten ++ [] :=
  ⟨_, issue_searching 1 _, rfl, rfl, solution_one, rfl⟩

/-- From the start of a search, and from its last counter. -/
theorem witness_SearchExhaustsAfterAllRounds :
    (∃ s : State, s.Searching [] 257#32 ∧ s.ctrl = .issue ∧ s.counter = 0 ∧ (∀ c, solves [] 257#32 c = false) ∧
      s.schedule = (List.replicate (2 ^ 64 - s.counter.toNat) searchRound).flatten ++ []) ∧
    ∃ s : State, s.Searching [] 257#32 ∧ s.ctrl = .issue ∧ s.counter = BitVec.allOnes 64 ∧
      (∀ c, solves [] 257#32 c = false) ∧ s.schedule = (List.replicate (2 ^ 64 - s.counter.toNat) searchRound).flatten ++ [] :=
  ⟨⟨{ blk .issue 257 0 with schedule := (List.replicate (2 ^ 64 - (0 : Count).toNat) searchRound).flatten ++ [] },
      issue_searching 257 _, rfl, rfl, fun _ => rfl, rfl⟩,
    ⟨{ blk .issue 257 (BitVec.allOnes 64) with schedule := searchRound }, ⟨issue_inv _ _ _, rfl, rfl, rfl, fun _ _ => rfl⟩,
      rfl, rfl, fun _ => rfl, by decide⟩⟩

theorem witness_DifficultyZeroFindsCounterZero :
    ∃ s : State, s.busy = false ∧ s.plen.toNat ≤ s.maxPay.toNat ∧ s.difficulty = 0 ∧
      s.hostOps = .tx (wrTx 0x000#32 0x00000002#32) :: [waitDone] ∧ s.schedule = .host :: searchRound ++ [] :=
  ⟨{ loaded with hostOps := [hostLine .search, waitDone], schedule := [.host, .ctrl, .sha, .ctrl] }, rfl, by decide, rfl, rfl,
    rfl⟩

theorem witness_UnsatisfiableDifficultyNeverFinds :
    ∃ s t : State, s.Inv ∧ s.busy = true ∧ 257 ≤ s.difficulty.toNat ∧ nextAgent s ≠ .platform ∧ step s = .next t :=
  ⟨{ testing 257 5 with schedule := [.ctrl] }, _, testing_inv 257 5 _, rfl, by decide, by decide, rfl⟩

theorem witness_CounterReadMayTear :
    (blk .test 257 0xFFFFFFFF#64).ctrl = .test ∧ (blk .test 257 0xFFFFFFFF#64).counter = 0xFFFFFFFF#64 ∧
    pred (blk .test 257 0xFFFFFFFF#64).digest 257#32 = false := by decide

end Sys2Proof.Tests
end

section
/-! Proofs of the family 00_scope.md: `le64`, whose step a step is and what each agent's step is, and the state after reset. -/

namespace Sys2Proof.Machine

/-! ## `le64` -/

theorem le64_getElem? (c : Count) {j : Nat} (hj : j < 8) : (le64 c)[j]? = some (c.extractLsb' (8 * j) 8) := by
  rw [le64, List.getElem?_map, List.getElem?_range hj, Option.map_some]

/-- Settles O6: the length, and byte `j` of the list that `le64` is built as. -/
theorem counterBytesLittleEndian : Obligations.CounterBytesLittleEndian :=
  fun c => ⟨le64_length c, fun _ => le64_getElem? c⟩

/-! ## Turns, and the steps of the agents -/

/-- The nine bytes of a 65-bit record are never rejected (R61). -/
@[simp] theorem decode_leBytes_busTx (t : BusTx) : decode (leBytes 9 t.toNat) = .ok (decodeBustx t) := by
  rw [decode_recordBytes (by have := t.isLt; omega), if_pos t.isLt, BitVec.ofNat_toNat, BitVec.setWidth_eq]

theorem step_of_nextAgent {s : State} {a : Agent} (h : nextAgent s = a) : step s = agentStep a (advance s) := by
  rw [step, h]

theorem nextAgent_of_schedule_cons {s : State} {a : Agent} {l : List Agent} (h : s.schedule = a :: l) :
    nextAgent s = a := by
  rw [nextAgent, h]

theorem advance_of_schedule_cons {s : State} {a : Agent} {l : List Agent} (h : s.schedule = a :: l) :
    advance s = { s with schedule := l } := by
  rw [advance, h]

theorem advance_of_schedule_nil {s : State} (h : s.schedule = []) : advance s = { s with draws := s.draws + 1 } := by
  rw [advance, h]

@[simp] theorem advance_hostOps (s : State) : (advance s).hostOps = s.hostOps := by
  obtain ⟨l, n, e⟩ := advance_eq s
  rw [e]

theorem hostStep_of_nil {s : State} (h : s.hostOps = []) : hostStep s = .next s := by
  rw [hostStep, h]

theorem hostStep_of_tx {s : State} {t : BusTx} {rest : List HostOp} (h : s.hostOps = .tx t :: rest) :
    hostStep s = exec (decodeBustx t) (s.setHostOps rest) := by
  rw [hostStep, h]

/-- Settles O8: the bytes of a record decode to what the host step runs, and using up a turn leaves the host's lines. -/
theorem stepRunsTheDecodedTransaction : Obligations.StepRunsTheDecodedTransaction := by
  intro s t rest i hturn hline hdec
  have hi : decodeBustx t = i := by simpa using hdec
  have hline' : (advance s).hostOps = .tx t :: rest := by rw [advance_hostOps, hline]
  calc step s = hostStep (advance s) := step_of_nextAgent hturn
    _ = exec (decodeBustx t) ((advance s).setHostOps rest) := hostStep_of_tx hline'
    _ = exec i ((advance s).setHostOps rest) := by rw [hi]

/-- Settles O10: one clause for each agent's turn, and one for each form of the schedule. -/
theorem stepOfTheOtherAgents : Obligations.StepOfTheOtherAgents := by
  intro s
  refine ⟨step_of_nextAgent, step_of_nextAgent, step_of_nextAgent, ?idleHost, ?scheduled, advance_of_schedule_nil⟩
  case idleHost =>
    intro hturn hnil
    exact (step_of_nextAgent hturn).trans (hostStep_of_nil ((advance_hostOps s).trans hnil))
  case scheduled =>
    exact fun _ _ h => ⟨nextAgent_of_schedule_cons h, advance_of_schedule_cons h⟩

/-! ## After reset -/

@[simp] theorem target_statusOffset (cap : Word) : target cap 0x004#32 = .status := by simp [target]

@[simp] theorem target_maxPayOffset (cap : Word) : target cap 0x020#32 = .maxPay := by simp [target]

/-- A read of STATUS, in any state (R99). -/
theorem exec_rd_status (s : State) : exec (.rd 0x004#32) s = .next { s with rdata := s.statusWord } := by
  rw [exec, execRd, target_statusOffset]
  rfl

/-- A read of MAXPAY, in any state (R28, R99). -/
theorem exec_rd_maxPay (s : State) : exec (.rd 0x020#32) s = .next { s with rdata := s.maxPay } := by
  rw [exec, execRd, target_maxPayOffset]
  rfl

@[simp] theorem digByte_replicate_zero (i : Nat) : digByte (Vector.replicate 32 0#8) i = 0x00#8 := by
  rw [digByte, Vector.getElem?_replicate]
  split <;> rfl

theorem State.resetWith_statusWord (cap : Word) : (State.resetWith cap).statusWord = 0#32 :=
  State.statusWord_eq_zero rfl rfl rfl rfl rfl rfl

theorem capacityLegal_resetCapacity : capacityLegal Config.resetCapacity = true := by decide

/-- Settles O17: the fields as `State.resetWith` sets them, and the two reads by what a read of each register returns. -/
theorem resetStateValues : Obligations.ResetStateValues := by
  refine ⟨fun cap => ?_, Config.resetCapacity, capacityLegal_resetCapacity, rfl⟩
  have hstatus := exec_rd_status (State.resetWith cap)
  rw [State.resetWith_statusWord] at hstatus
  exact ⟨rfl, rfl, rfl, rfl, rfl, rfl, rfl, rfl, rfl, rfl, rfl, fun i _ => digByte_replicate_zero i, rfl, rfl,
    hstatus, exec_rd_maxPay _⟩

/-- In an IDLE block without a request the invariant is about the capacity and the payload buffer alone. -/
theorem State.Inv.of_idle {s : State} (hidle : s.ctrl = .idle) (hreq : s.req = none)
    (hcap : capacityLegal s.maxPay = true) (hform : Memory.wf s.payload = true)
    (hfits : Memory.within s.maxPay.toNat s.payload = true) : s.Inv where
  pending := by simp [hidle, hreq]
  fits := by simp [State.busy, hidle]
  found := by simp [hidle]
  exhausted := by simp [hidle]
  message := by simp [hidle]
  digest := by simp [hidle]
  running := by simp [State.busy, hidle]
  capacity := hcap
  payloadForm := hform
  payloadFits := hfits

theorem State.resetWith_inv {cap : Word} (h : capacityLegal cap = true) : (State.resetWith cap).Inv :=
  State.Inv.of_idle rfl rfl h rfl rfl

/-- Settles O38: an IDLE block without a request and without a listed payload byte; the capacity of `State.reset` is legal. -/
theorem invariantHoldsAtReset : Obligations.InvariantHoldsAtReset :=
  ⟨State.resetWith_inv capacityLegal_resetCapacity, fun _ => State.resetWith_inv⟩

end Sys2Proof.Machine
end

section
/-! Proofs of the family 10_state.md: the writes that are refused, the STATUS word, what each kind of step can do to the
block, and the invariant of reachable states. -/

namespace Sys2Proof.Machine

/-! ## Writes to the registers -/

theorem State.raise_access_eq (s : State) : s.raise .access = { s with errAccess := true } := by simp [State.raise]

theorem State.raise_busy_eq (s : State) : s.raise .busy = { s with errBusy := true } := by simp [State.raise]

/-- What a host write never reaches: misaligned, read-only and reserved offsets (R31, R39, R100). -/
def Target.unwritable : Target → Bool
  | .misaligned | .status | .counterLo | .counterHi | .resultLo | .resultHi | .maxPay | .reserved => true
  | .ctrl | .difficulty | .plen | .digest _ | .payload _ => false

/-- What BUSY locks (R18). -/
def Target.lockable : Target → Bool
  | .difficulty | .plen | .digest _ | .payload _ => true
  | .ctrl | .misaligned | .status | .counterLo | .counterHi | .resultLo | .resultHi | .maxPay | .reserved => false

theorem exec_wr_of_unwritable {s : State} {off : Word} (h : (target s.maxPay off).unwritable = true) (v : Word) :
    exec (.wr off v) s = .next { s with errAccess := true } := by
  rw [exec, execWr, ← State.raise_access_eq]
  cases ht : target s.maxPay off with
  | misaligned | status | counterLo | counterHi | resultLo | resultHi | maxPay | reserved => rfl
  | ctrl | difficulty | plen | digest | payload => simp [ht, Target.unwritable] at h

theorem exec_wr_of_lockable {s : State} {off : Word} (hb : s.busy = true)
    (h : (target s.maxPay off).lockable = true) (v : Word) :
    exec (.wr off v) s = .next { s with errBusy := true } := by
  have locked (t : State) : unlessBusy s t = s.raise .busy := if_pos hb
  rw [exec, execWr, ← State.raise_busy_eq]
  cases ht : target s.maxPay off with
  | difficulty | plen | digest | payload => exact congrArg _ (locked _)
  | ctrl | misaligned | status | counterLo | counterHi | resultLo | resultHi | maxPay | reserved =>
    simp [ht, Target.lockable] at h

@[simp] theorem target_difficultyOffset (cap : Word) : target cap 0x008#32 = .difficulty := by simp [target]

@[simp] theorem target_plenOffset (cap : Word) : target cap 0x00C#32 = .plen := by simp [target]

/-- Settles O28: each such offset names something a write never reaches. -/
theorem writeOutsideTheMapRaisesErrAccess : Obligations.WriteOutsideTheMapRaisesErrAccess := by
  intro s off v h
  apply exec_wr_of_unwritable
  rcases h with hmis | hro | ⟨h4, hres⟩
  · rw [target_misaligned hmis]; rfl
  · rcases target_readonly (cap := s.maxPay) hro with e | e | e | e | e | e <;> rw [e] <;> rfl
  · rw [target_reserved h4 hres]; rfl

/-- Settles O29: each such offset names something BUSY locks. -/
theorem writeWhileBusyIsDropped : Obligations.WriteWhileBusyIsDropped := by
  intro s off v hb h
  apply exec_wr_of_lockable hb
  rcases h with rfl | rfl | ⟨k, hk, hoff⟩ | ⟨k, hk, hoff⟩
  · rw [target_difficultyOffset]; rfl
  · rw [target_plenOffset]; rfl
  · rw [target_digest hk hoff]; rfl
  · rw [target_payload hk hoff]; rfl

/-- Settles O30: what DIFFICULTY's and PLEN's offsets name, and that a write which BUSY does not lock is done. -/
theorem writeConfigurationReadsBack : Obligations.WriteConfigurationReadsBack := by
  intro s v hb
  have free (t : State) : unlessBusy s t = t := if_neg (by simp [hb])
  refine ⟨?wrDifficulty, ?wrPlen, ?rdDifficulty, ?rdPlen⟩
  case wrDifficulty => rw [exec, execWr, target_difficultyOffset]; exact congrArg _ (free _)
  case wrPlen => rw [exec, execWr, target_plenOffset]; exact congrArg _ (free _)
  case rdDifficulty => rw [exec, execRd, target_difficultyOffset]; rfl
  case rdPlen => rw [exec, execRd, target_plenOffset]; rfl

/-- Settles O34: the bits and fields of STATUS, read as conditions on STATE. -/
theorem statusWordFields : Obligations.StatusWordFields := by
  intro s
  obtain ⟨hbusy, hdone, hfound, hexhausted, hpass, hcmd, herrBusy, hparam, haccess⟩ := s.statusWord_bits
  obtain ⟨hstate, hrsvd⟩ := s.statusWord_fields
  refine ⟨?state, hbusy ▸ s.busy_iff, hdone ▸ s.done_iff, ?found, ?exhausted, hpass, hcmd, herrBusy, hparam, haccess,
    hrsvd, exec_wr_of_unwritable (by rw [target_statusOffset]; rfl)⟩
  case state => rw [hstate]; cases s.ctrl <;> rfl
  case found => rw [hfound]; exact beq_iff_eq
  case exhausted => rw [hexhausted]; exact beq_iff_eq

/-! ## What a turn, a host line and an instruction leave as they were -/

theorem SameBlock.trans {s t u : State} (h : SameBlock s t) (k : SameBlock t u) : SameBlock s u :=
  ⟨k.ctrl.trans h.ctrl, k.pass.trans h.pass, k.difficulty.trans h.difficulty, k.plen.trans h.plen,
    k.counter.trans h.counter, k.result.trans h.result, k.maxPay.trans h.maxPay, k.digest.trans h.digest,
    k.payload.trans h.payload, k.req.trans h.req⟩

theorem State.busy_congr {s t : State} (h : t.ctrl = s.ctrl) : t.busy = s.busy := by rw [State.busy, State.busy, h]

theorem State.done_congr {s t : State} (h : t.ctrl = s.ctrl) : t.done = s.done := by rw [State.done, State.done, h]

theorem SameBlock.busy {s t : State} (h : SameBlock s t) : t.busy = s.busy := State.busy_congr h.ctrl

theorem SameBlock.done {s t : State} (h : SameBlock s t) : t.done = s.done := State.done_congr h.ctrl

/-- No error bit goes from 1 to 0 (R23). -/
structure ErrorsKept (s t : State) : Prop where
  errCmd : s.errCmd = true → t.errCmd = true
  errBusy : s.errBusy = true → t.errBusy = true
  errParam : s.errParam = true → t.errParam = true
  errAccess : s.errAccess = true → t.errAccess = true

theorem ErrorsKept.trans {s t u : State} (h : ErrorsKept s t) (k : ErrorsKept t u) : ErrorsKept s u :=
  ⟨k.errCmd ∘ h.errCmd, k.errBusy ∘ h.errBusy, k.errParam ∘ h.errParam, k.errAccess ∘ h.errAccess⟩

theorem advance_errorsKept (s : State) : ErrorsKept s (advance s) := by
  obtain ⟨l, n, e⟩ := advance_eq s
  rw [e]
  exact ⟨id, id, id, id⟩

theorem setHostOps_sameBlock (s : State) (l : List HostOp) : SameBlock s (s.setHostOps l) :=
  ⟨rfl, rfl, rfl, rfl, rfl, rfl, rfl, rfl, rfl, rfl⟩

theorem setHostOps_errorsKept (s : State) (l : List HostOp) : ErrorsKept s (s.setHostOps l) := ⟨id, id, id, id⟩

@[simp] theorem advance_ctrl (s : State) : (advance s).ctrl = s.ctrl := (advance_sameBlock s).ctrl
@[simp] theorem advance_pass (s : State) : (advance s).pass = s.pass := (advance_sameBlock s).pass
@[simp] theorem advance_difficulty (s : State) : (advance s).difficulty = s.difficulty := (advance_sameBlock s).difficulty
@[simp] theorem advance_counter (s : State) : (advance s).counter = s.counter := (advance_sameBlock s).counter
@[simp] theorem advance_maxPay (s : State) : (advance s).maxPay = s.maxPay := (advance_sameBlock s).maxPay
@[simp] theorem advance_digest (s : State) : (advance s).digest = s.digest := (advance_sameBlock s).digest
@[simp] theorem advance_req (s : State) : (advance s).req = s.req := (advance_sameBlock s).req
@[simp] theorem advance_busy (s : State) : (advance s).busy = s.busy := (advance_sameBlock s).busy
@[simp] theorem advance_done (s : State) : (advance s).done = s.done := (advance_sameBlock s).done

/-- A read changes nothing of the block and clears no error bit. -/
theorem execRd_frame {off : Word} {s t : State} (h : execRd off s = .next t) : SameBlock s t ∧ ErrorsKept s t := by
  rcases execRd_cases off s with e | e <;> rw [e, Host.Outcome.next.injEq] at h <;> subst h
  · exact ⟨⟨rfl, rfl, rfl, rfl, rfl, rfl, rfl, rfl, rfl, rfl⟩, ⟨id, id, id, id⟩⟩
  · exact ⟨⟨rfl, rfl, rfl, rfl, rfl, rfl, rfl, rfl, rfl, rfl⟩, ⟨id, id, id, fun _ => rfl⟩⟩

theorem HostEffect.maxPay_eq {i : Instr} {s t : State} (h : HostEffect i s t) : t.maxPay = s.maxPay := by
  cases h <;> rfl

/-- CLEAR alone clears an error bit (R23, R98). -/
theorem HostEffect.errorsKept_or_clear {i : Instr} {s t : State} (h : HostEffect i s t) :
    ErrorsKept s t ∨ i = .clear ∨ i = .wr 0x000#32 0x00000003#32 := by
  cases h with
  | clearDone _ hi | clear _ hi => exact .inr hi
  | readError => exact .inl ⟨id, id, id, fun _ => rfl⟩
  | raised e => exact .inl ⟨by simp_all, by simp_all, by simp_all, by simp_all⟩
  | _ => exact .inl ⟨id, id, id, id⟩

/-- An accepted SEARCH alone writes COUNTER (R26). -/
theorem HostEffect.counter_eq_or_search {i : Instr} {s t : State} (h : HostEffect i s t) :
    t.counter = s.counter ∨
    (s.busy = false ∧ t.ctrl = .issue ∧ t.counter = 0 ∧ (i = .search ∨ i = .wr 0x000#32 0x00000002#32)) := by
  cases h with
  | search hb _ hi => exact .inr ⟨hb, rfl, rfl, hi⟩
  | _ => exact .inl rfl

/-- CHECK and an accepted SEARCH alone write PASS (R22). -/
theorem HostEffect.pass_eq_or_command {i : Instr} {s t : State} (h : HostEffect i s t) :
    t.pass = s.pass ∨
    (s.busy = false ∧ t.ctrl = s.ctrl ∧ t.pass = pred s.digest s.difficulty ∧
      (i = .check ∨ i = .wr 0x000#32 0x00000001#32)) ∨
    (s.busy = false ∧ t.ctrl = .issue ∧ t.pass = false ∧ (i = .search ∨ i = .wr 0x000#32 0x00000002#32)) := by
  cases h with
  | check hb hi => exact .inr (.inl ⟨hb, rfl, rfl, hi⟩)
  | search hb _ hi => exact .inr (.inr ⟨hb, rfl, rfl, hi⟩)
  | _ => exact .inl rfl

/-- SEARCH and CLEAR alone write STATE (R78, R98). -/
theorem HostEffect.ctrl_eq_or_command {i : Instr} {s t : State} (h : HostEffect i s t) :
    t.ctrl = s.ctrl ∨
    (t.ctrl = .issue ∧ (i = .search ∨ i = .wr 0x000#32 0x00000002#32)) ∨
    (t.ctrl = .idle ∧ (i = .clear ∨ i = .wr 0x000#32 0x00000003#32)) := by
  cases h with
  | search _ _ hi => exact .inr (.inl ⟨rfl, hi⟩)
  | clearDone _ hi => exact .inr (.inr ⟨rfl, hi⟩)
  | _ => exact .inl rfl

/-- A record is a read or a write, and no command (R61). -/
theorem decodeBustx_cmdWord (x : BusTx) : (decodeBustx x).cmdWord = none := by
  unfold decodeBustx
  split <;> rfl

/-- So a record runs a command as its write to CTRL. -/
theorem decodeBustx_eq_wr_of_command {x : BusTx} {c : Instr} {w : Word} (hc : c.cmdWord = some w)
    (h : decodeBustx x = c ∨ decodeBustx x = .wr 0x000#32 w) : decodeBustx x = .wr 0x000#32 w :=
  h.resolve_left fun e => by simpa [e, hc] using decodeBustx_cmdWord x

/-! ## What a step can do to the block -/

theorem ctrlStep_errorsKept (s : State) : ErrorsKept s (ctrlStep s) := by
  rcases ctrlStep_cases s with ⟨_, _, e⟩ | ⟨_, e⟩ | ⟨_, _, e⟩ | ⟨_, _, _, e⟩ | ⟨_, _, _, e⟩ <;> rw [e] <;>
    exact ⟨id, id, id, id⟩

theorem ctrlStep_maxPay (s : State) : (ctrlStep s).maxPay = s.maxPay := by
  rcases ctrlStep_cases s with ⟨_, _, e⟩ | ⟨_, e⟩ | ⟨_, _, e⟩ | ⟨_, _, _, e⟩ | ⟨_, _, _, e⟩ <;> rw [e]

/-- A TEST step alone counts, by one or not at all (R85, R86). -/
theorem ctrlStep_counter (s : State) :
    (ctrlStep s).counter = s.counter ∨ s.ctrl = .test ∧ (ctrlStep s).counter = s.counter + 1 := by
  rcases ctrlStep_cases s with ⟨_, _, e⟩ | ⟨_, e⟩ | ⟨_, _, e⟩ | ⟨ht, _, h0, e⟩ | ⟨ht, _, _, e⟩ <;> rw [e]
  · exact .inl rfl
  · exact .inl rfl
  · exact .inl rfl
  · exact .inr ⟨ht, h0.symm⟩
  · exact .inr ⟨ht, rfl⟩

/-- A TEST step alone writes PASS, and writes the predicate's result (R85). -/
theorem ctrlStep_pass (s : State) :
    (ctrlStep s).pass = s.pass ∨ s.ctrl = .test ∧ (ctrlStep s).pass = pred s.digest s.difficulty := by
  rcases ctrlStep_cases s with ⟨_, _, e⟩ | ⟨_, e⟩ | ⟨ht, hp, e⟩ | ⟨ht, hp, _, e⟩ | ⟨ht, hp, _, e⟩ <;> rw [e]
  · exact .inl rfl
  · exact .inl rfl
  · exact .inr ⟨ht, hp.symm⟩
  · exact .inr ⟨ht, hp.symm⟩
  · exact .inr ⟨ht, hp.symm⟩

/-- A CTRL_FSM step leaves DONE as it was, or is the TEST step that ends a search (R85). -/
theorem ctrlStep_done (s : State) :
    (ctrlStep s).done = s.done ∨
    (s.ctrl = .test ∧ ((ctrlStep s).ctrl = .found ∨ (ctrlStep s).ctrl = .exhausted)) := by
  rcases ctrlStep_cases s with ⟨_, _, e⟩ | ⟨hi, e⟩ | ⟨ht, _, e⟩ | ⟨ht, _, _, e⟩ | ⟨ht, _, _, e⟩ <;> rw [e]
  · exact .inl rfl
  · exact .inl (by simp [State.done, hi])
  · exact .inr ⟨ht, .inl rfl⟩
  · exact .inr ⟨ht, .inr rfl⟩
  · exact .inl (by simp [State.done, ht])

theorem shaStep_frame (s : State) :
    ErrorsKept s (shaStep s) ∧ (shaStep s).maxPay = s.maxPay ∧ (shaStep s).counter = s.counter ∧
      (shaStep s).pass = s.pass := by
  rcases shaStep_cases s with ⟨_, e⟩ | ⟨m, _, e⟩ <;> rw [e] <;> exact ⟨⟨id, id, id, id⟩, rfl, rfl, rfl⟩

/-- A response leaves DONE at 0: the request it answers is pending in WAIT alone (R37, R83). -/
theorem shaStep_done {s : State} (hs : s.Inv) : (shaStep s).done = s.done := by
  rcases shaStep_cases s with ⟨_, e⟩ | ⟨m, hm, e⟩ <;> rw [e]
  have hw : s.ctrl = .wait := hs.pending.mp (by simp [hm])
  simp [State.done, hw]

/-- Everything a step can do to a state: a host line that does nothing to the block (none left, or a `POLL`), a transaction of
the host, a block step, or reset. -/
inductive StepEffect (s : State) : State → Prop where
  | quiet {t : State} (ha : nextAgent s = .host) (hblock : SameBlock s t) (herr : ErrorsKept s t) : StepEffect s t
  | transaction {t : State} {x : BusTx} {rest : List HostOp} (ha : nextAgent s = .host)
      (hx : s.hostOps = .tx x :: rest) (heff : HostEffect (decodeBustx x) ((advance s).setHostOps rest) t) : StepEffect s t
  | ctrl (ha : nextAgent s = .ctrl) : StepEffect s (ctrlStep (advance s))
  | sha (ha : nextAgent s = .sha) : StepEffect s (shaStep (advance s))
  | reset (ha : nextAgent s = .platform) : StepEffect s (resetStep (advance s))

/-- Every step is one of `StepEffect`'s. -/
theorem effect_of_step {s t : State} (h : step s = .next t) : StepEffect s t := by
  rcases step_cases h with ⟨ha, h⟩ | ⟨ha, rfl⟩ | ⟨ha, rfl⟩ | ⟨ha, rfl⟩
  · have hblock := advance_sameBlock s
    have herr := advance_errorsKept s
    rcases hostStep_cases h with ⟨_, rfl⟩ | ⟨x, rest, hx, hexec⟩ | ⟨off, mask, value, rest, u, _, hread, hu⟩
    · exact .quiet ha hblock herr
    · exact .transaction ha (by rwa [advance_hostOps] at hx) (effect_of_exec hexec)
    · obtain ⟨hb, he⟩ := execRd_frame hread
      have hb := hblock.trans hb
      have he := herr.trans he
      rcases hu with ⟨_, rfl⟩ | ⟨_, rfl⟩
      · exact .quiet ha (hb.trans (setHostOps_sameBlock _ _)) (he.trans (setHostOps_errorsKept _ _))
      · exact .quiet ha hb he
  · exact .ctrl ha
  · exact .sha ha
  · exact .reset ha

theorem step_maxPay {s t : State} (h : step s = .next t) : t.maxPay = s.maxPay := by
  cases effect_of_step h with
  | quiet _ hblock _ => exact hblock.maxPay
  | transaction _ _ heff => simpa using heff.maxPay_eq
  | ctrl _ => simpa using ctrlStep_maxPay (advance s)
  | sha _ =>
    obtain ⟨_, hm, _, _⟩ := shaStep_frame (advance s)
    simpa using hm
  | reset _ => simp

/-- Settles O40: no effect of a step writes the capacity, and a write never reaches MAXPAY. -/
theorem maxpayNeverChanges : Obligations.MaxpayNeverChanges :=
  fun s => ⟨fun _ => step_maxPay, exec_rd_maxPay s, exec_wr_of_unwritable (by rw [target_maxPayOffset]; rfl)⟩

/-- Settles O43: of the effects of an instruction CLEAR alone clears, and of the block steps none does. -/
theorem errorBitsAreSticky : Obligations.ErrorBitsAreSticky := by
  intro s t h hplatform hclear
  suffices hk : ErrorsKept s t from ⟨hk.errCmd, hk.errBusy, hk.errParam, hk.errAccess⟩
  have hadv := advance_errorsKept s
  cases effect_of_step h with
  | quiet _ _ herr => exact herr
  | transaction ha hx heff =>
    rcases heff.errorsKept_or_clear with hk | hi
    · exact hadv.trans ((setHostOps_errorsKept _ _).trans hk)
    · exact absurd (decodeBustx_eq_wr_of_command rfl hi) (hclear ha _ _ hx)
  | ctrl _ => exact hadv.trans (ctrlStep_errorsKept _)
  | sha _ =>
    obtain ⟨hk, _, _, _⟩ := shaStep_frame (advance s)
    exact hadv.trans hk
  | reset ha => exact absurd ha hplatform

/-- Settles O44: the effects that write COUNTER are SEARCH's, the TEST step's and reset's. -/
theorem counterMovesByOneOrToZero : Obligations.CounterMovesByOneOrToZero := by
  intro s t h hne
  cases effect_of_step h with
  | quiet _ hblock _ => exact absurd hblock.counter hne
  | transaction ha hx heff =>
    rcases heff.counter_eq_or_search with hc | ⟨hb, ht, hc, hi⟩
    · exact absurd (by simpa using hc) hne
    · exact .inr (.inl ⟨ha, by simpa using hb, ht, hc, _, _, hx, decodeBustx_eq_wr_of_command rfl hi⟩)
  | ctrl ha =>
    rcases ctrlStep_counter (advance s) with hc | ⟨ht, hc⟩
    · exact absurd (by simpa using hc) hne
    · rw [advance_counter] at hc
      exact .inl ⟨ha, by simpa using ht, by rw [hc]; exact BitVec.toNat_add s.counter 1⟩
  | sha _ =>
    obtain ⟨_, _, hc, _⟩ := shaStep_frame (advance s)
    exact absurd (by simpa using hc) hne
  | reset ha => exact .inr (.inr ⟨ha, rfl⟩)

/-- Settles O45: the effects that write PASS are CHECK's, the TEST step's, SEARCH's and reset's. -/
theorem passHasFourWriters : Obligations.PassHasFourWriters := by
  intro s t h hne
  cases effect_of_step h with
  | quiet _ hblock _ => exact absurd hblock.pass hne
  | transaction ha hx heff =>
    rcases heff.pass_eq_or_command with hp | ⟨hb, ht, hp, hi⟩ | ⟨hb, ht, hp, hi⟩
    · exact absurd (by simpa using hp) hne
    · exact .inl ⟨ha, by simpa using hb, by simpa using ht, by simpa using hp, _, _, hx,
        decodeBustx_eq_wr_of_command rfl hi⟩
    · exact .inr (.inr (.inl ⟨ha, by simpa using hb, ht, hp, _, _, hx, decodeBustx_eq_wr_of_command rfl hi⟩))
  | ctrl ha =>
    rcases ctrlStep_pass (advance s) with hp | ⟨ht, hp⟩
    · exact absurd (by simpa using hp) hne
    · exact .inr (.inl ⟨ha, by simpa using ht, by simpa using hp⟩)
  | sha _ =>
    obtain ⟨_, _, _, hp⟩ := shaStep_frame (advance s)
    exact absurd (by simpa using hp) hne
  | reset ha => exact .inr (.inr (.inr ⟨ha, rfl⟩))

/-! ## The invariant -/

/-- The invariant is about the block alone, and not about its error bits. -/
theorem State.Inv.of_sameBlock {s t : State} (hs : s.Inv) (h : SameBlock s t) : t.Inv where
  pending := by rw [h.req, h.ctrl]; exact hs.pending
  fits := by rw [h.busy, h.plen, h.maxPay]; exact hs.fits
  found := by rw [h.ctrl, h.counter, h.result]; exact hs.found
  exhausted := by rw [h.ctrl, h.counter, h.result]; exact hs.exhausted
  message := by rw [h.ctrl, h.req, State.message_congr h.plen h.payload h.counter]; exact hs.message
  digest := by rw [h.ctrl, h.digest, State.message_congr h.plen h.payload h.counter]; exact hs.digest
  running := by rw [h.busy, h.result, h.pass]; exact hs.running
  capacity := by rw [h.maxPay]; exact hs.capacity
  payloadForm := by rw [h.payload]; exact hs.payloadForm
  payloadFits := by rw [h.maxPay, h.payload]; exact hs.payloadFits

theorem advance_inv {s : State} (hs : s.Inv) : (advance s).Inv := hs.of_sameBlock (advance_sameBlock s)

theorem State.Inv.req_eq_none {s : State} (hs : s.Inv) (h : s.ctrl ≠ .wait) : s.req = none := by
  simpa using mt hs.pending.mp h

theorem State.Inv.req_eq_none_of_not_busy {s : State} (hs : s.Inv) (hb : s.busy = false) : s.req = none :=
  hs.req_eq_none fun hw => by simp [State.busy, hw] at hb

/-- Where no search runs, what is left of the invariant: no request, what FOUND and EXHAUSTED say of COUNTER and RESULT, the
capacity and the payload buffer. -/
theorem State.Inv.of_not_busy {s : State} (hb : s.busy = false) (hreq : s.req = none)
    (hfound : s.ctrl = .found → s.counter = s.result)
    (hexhausted : s.ctrl = .exhausted → s.counter = 0 ∧ s.result = 0) (hcap : capacityLegal s.maxPay = true)
    (hform : Memory.wf s.payload = true) (hfits : Memory.within s.maxPay.toNat s.payload = true) : s.Inv := by
  have hwait : s.ctrl ≠ .wait := fun hw => by simp [State.busy, hw] at hb
  have htest : s.ctrl ≠ .test := fun ht => by simp [State.busy, ht] at hb
  exact
    { pending := by simp [hreq, hwait]
      fits := by simp [hb]
      found := hfound
      exhausted := hexhausted
      message := fun hw => absurd hw hwait
      digest := fun ht => absurd ht htest
      running := by simp [hb]
      capacity := hcap
      payloadForm := hform
      payloadFits := hfits }

/-- What the invariant says in ISSUE. -/
theorem State.Inv.of_issue {s : State} (hissue : s.ctrl = .issue) (hreq : s.req = none)
    (hplen : s.plen.toNat ≤ s.maxPay.toNat) (hresult : s.result = 0) (hpass : s.pass = false)
    (hcap : capacityLegal s.maxPay = true) (hform : Memory.wf s.payload = true)
    (hfits : Memory.within s.maxPay.toNat s.payload = true) : s.Inv where
  pending := by simp [hissue, hreq]
  fits := fun _ => hplen
  found := by simp [hissue]
  exhausted := by simp [hissue]
  message := by simp [hissue]
  digest := by simp [hissue]
  running := fun _ => ⟨hresult, hpass⟩
  capacity := hcap
  payloadForm := hform
  payloadFits := hfits

/-- R78: an accepted SEARCH. -/
theorem startSearch_inv {s : State} (hs : s.Inv) (hb : s.busy = false) (hplen : s.plen.toNat ≤ s.maxPay.toNat) :
    (startSearch s).Inv :=
  .of_issue rfl (hs.req_eq_none_of_not_busy hb) hplen rfl rfl hs.capacity hs.payloadForm hs.payloadFits

/-- A payload word that starts in a buffer of legal capacity ends in it (R8, R41). -/
theorem payloadWord_ends_within {cap : Word} {o : Nat} (hcap : capacityLegal cap = true) (h4 : o % 4 = 0)
    (ho : o < cap.toNat) : o + 3 < cap.toNat := by
  simp only [capacityLegal, Bool.and_eq_true, decide_eq_true_eq] at hcap
  omega

theorem State.writePayWord_wf {s : State} (o : Nat) (v : Word) (h : Memory.wf s.payload = true) :
    Memory.wf (s.writePayWord o v).payload = true :=
  Memory.wf_set _ _ _ (Memory.wf_set _ _ _ (Memory.wf_set _ _ _ (Memory.wf_set _ _ _ h)))

theorem State.writePayWord_within {s : State} {cap o : Nat} (v : Word) (h : Memory.within cap s.payload = true)
    (ho : o + 3 < cap) : Memory.within cap (s.writePayWord o v).payload = true := by
  refine Memory.within_set _ _ _ _ (Memory.within_set _ _ _ _ (Memory.within_set _ _ _ _
    (Memory.within_set _ _ _ _ h ?_) ?_) ?_) ho <;> omega

/-- Every instruction keeps the invariant. -/
theorem HostEffect.inv {i : Instr} {s t : State} (h : HostEffect i s t) (hs : s.Inv) : t.Inv := by
  cases h with
  | nothing => exact hs
  | read | readError | raised | clear => exact hs.of_sameBlock ⟨rfl, rfl, rfl, rfl, rfl, rfl, rfl, rfl, rfl, rfl⟩
  | check hb | difficulty hb | plen hb | digest hb =>
    exact .of_not_busy hb (hs.req_eq_none_of_not_busy hb) hs.found hs.exhausted hs.capacity hs.payloadForm
      hs.payloadFits
  | search hb hplen => exact startSearch_inv hs hb hplen
  | clearDone hd =>
    have hw : s.ctrl ≠ .wait := fun e => by simp [State.done, e] at hd
    exact .of_idle rfl (hs.req_eq_none hw) hs.capacity hs.payloadForm hs.payloadFits
  | payload hb o v h4 ho =>
    have hend := payloadWord_ends_within hs.capacity h4 ho
    exact .of_not_busy hb (hs.req_eq_none_of_not_busy hb) hs.found hs.exhausted hs.capacity
      (State.writePayWord_wf o v hs.payloadForm) (State.writePayWord_within v hs.payloadFits hend)

/-- R81: in WAIT the request is the search's message. -/
theorem issueStep_inv {s : State} (hs : s.Inv) (hissue : s.ctrl = .issue) : (issueStep s).Inv := by
  have hbusy : s.busy = true := s.busy_iff.mpr (.inl hissue)
  have hctrl : (issueStep s).ctrl = .wait := rfl
  exact
    { pending := by simp [issueStep]
      fits := fun _ => hs.fits hbusy
      found := by simp [hctrl]
      exhausted := by simp [hctrl]
      message := fun _ => rfl
      digest := by simp [hctrl]
      running := fun _ => hs.running hbusy
      capacity := hs.capacity
      payloadForm := hs.payloadForm
      payloadFits := hs.payloadFits }

/-- R83: in TEST the digest is that of the search's message, which the pending request was. -/
theorem respondStep_inv {s : State} (hs : s.Inv) {m : List Byte} (hm : s.req = some m) : (respondStep s m).Inv := by
  have hwait : s.ctrl = .wait := hs.pending.mp (by simp [hm])
  have hbusy : s.busy = true := s.busy_iff.mpr (.inr (.inl hwait))
  obtain rfl : m = s.message := Option.some.inj (hm.symm.trans (hs.message hwait))
  have hctrl : (respondStep s s.message).ctrl = .test := rfl
  exact
    { pending := by simp [respondStep]
      fits := fun _ => hs.fits hbusy
      found := by simp [hctrl]
      exhausted := by simp [hctrl]
      message := by simp [hctrl]
      digest := fun _ => rfl
      running := fun _ => hs.running hbusy
      capacity := hs.capacity
      payloadForm := hs.payloadForm
      payloadFits := hs.payloadFits }

/-- R85: TEST ends the search in FOUND or EXHAUSTED, or goes back to ISSUE for the next counter. -/
theorem testStep_inv {s : State} (hs : s.Inv) (htest : s.ctrl = .test) : (testStep s).Inv := by
  have hbusy : s.busy = true := s.busy_iff.mpr (.inr (.inr htest))
  have hreq : s.req = none := hs.req_eq_none (by simp [htest])
  obtain ⟨hresult, -⟩ := hs.running hbusy
  unfold testStep
  split_ifs with hpred hlast
  · exact .of_not_busy rfl hreq (fun _ => rfl) (by simp) hs.capacity hs.payloadForm hs.payloadFits
  · exact .of_not_busy rfl hreq (by simp) (fun _ => ⟨hlast, hresult⟩) hs.capacity hs.payloadForm hs.payloadFits
  · exact .of_issue rfl hreq (hs.fits hbusy) hresult rfl hs.capacity hs.payloadForm hs.payloadFits

theorem ctrlStep_inv {s : State} (hs : s.Inv) : (ctrlStep s).Inv := by
  cases hc : s.ctrl with
  | issue => simpa [ctrlStep, hc] using issueStep_inv hs hc
  | test => simpa [ctrlStep, hc] using testStep_inv hs hc
  | idle | wait | found | exhausted => simpa [ctrlStep, hc] using hs

theorem shaStep_inv {s : State} (hs : s.Inv) : (shaStep s).Inv := by
  cases hr : s.req with
  | none => simpa [shaStep, hr] using hs
  | some m => simpa [shaStep, hr] using respondStep_inv hs hr

theorem resetStep_inv {s : State} (hs : s.Inv) : (resetStep s).Inv :=
  .of_idle rfl rfl hs.capacity hs.payloadForm hs.payloadFits

/-- Settles O39: one lemma for each effect of a step, after the turn, which is outside the block. -/
theorem everyStepKeepsTheInvariant : Obligations.EveryStepKeepsTheInvariant := by
  intro s t hs h
  have hadv := advance_inv hs
  cases effect_of_step h with
  | quiet _ hblock _ => exact hs.of_sameBlock hblock
  | transaction _ _ heff => exact heff.inv (hadv.of_sameBlock (setHostOps_sameBlock _ _))
  | ctrl _ => exact ctrlStep_inv hadv
  | sha _ => exact shaStep_inv hadv
  | reset _ => exact resetStep_inv hadv

/-! ## The completion signal -/

theorem State.irq_eq_statusBit (s : State) : s.irq = s.statusWord.getLsbD 4 := by
  obtain ⟨_, hdone, _⟩ := s.statusWord_bits
  rw [hdone, State.irq]

/-- From a state of the invariant a step leaves DONE as it was, or is the TEST step that ends the search, SEARCH, CLEAR or
reset. -/
theorem step_done_cases {s t : State} (hs : s.Inv) (h : step s = .next t) :
    t.done = s.done ∨
    (nextAgent s = .ctrl ∧ s.ctrl = .test ∧ (t.ctrl = .found ∨ t.ctrl = .exhausted)) ∨
    (nextAgent s = .host ∧ ∃ x rest, s.hostOps = .tx x :: rest ∧
      (decodeBustx x = .wr 0x000#32 0x00000002#32 ∧ t.ctrl = .issue ∨
        decodeBustx x = .wr 0x000#32 0x00000003#32 ∧ t.ctrl = .idle)) ∨
    (nextAgent s = .platform ∧ t.ctrl = .idle) := by
  cases effect_of_step h with
  | quiet _ hblock _ => exact .inl hblock.done
  | transaction ha hx heff =>
    rcases heff.ctrl_eq_or_command with hc | ⟨hc, hi⟩ | ⟨hc, hi⟩
    · exact .inl (State.done_congr (by simpa using hc))
    · exact .inr (.inr (.inl ⟨ha, _, _, hx, .inl ⟨decodeBustx_eq_wr_of_command rfl hi, hc⟩⟩))
    · exact .inr (.inr (.inl ⟨ha, _, _, hx, .inr ⟨decodeBustx_eq_wr_of_command rfl hi, hc⟩⟩))
  | ctrl ha =>
    rcases ctrlStep_done (advance s) with hd | ⟨ht, hend⟩
    · exact .inl (by simpa using hd)
    · exact .inr (.inl ⟨ha, by simpa using ht, hend⟩)
  | sha _ => exact .inl (by simpa using shaStep_done (advance_inv hs))
  | reset ha => exact .inr (.inr (.inr ⟨ha, rfl⟩))

theorem State.done_eq_false {s : State} (h : s.ctrl = .issue ∨ s.ctrl = .idle) : s.done = false := by
  rcases h with h | h <;> rw [State.done, h]

/-- Settles O46: a TEST step that ends the search leaves DONE at 1, and SEARCH, CLEAR and reset leave it at 0. -/
theorem irqIsDone : Obligations.IrqIsDone := by
  refine ⟨State.irq_eq_statusBit, fun s t hs h => ?_⟩
  rcases step_done_cases hs h with hd | ⟨ha, ht, hend⟩ | ⟨ha, x, rest, hx, hcmd⟩ | ⟨ha, hidle⟩
  · have same : t.irq = s.irq := hd
    exact ⟨fun h0 h1 => by simp [same, h0] at h1, fun h1 h0 => by simp [same, h1] at h0⟩
  · have up : t.irq = true := t.done_iff.mpr hend
    exact ⟨fun _ _ => ⟨ha, ht, hend⟩, fun _ h0 => by simp [up] at h0⟩
  · have down : t.irq = false := State.done_eq_false (hcmd.imp And.right And.right)
    exact ⟨fun _ h1 => by simp [down] at h1, fun _ _ => .inl ⟨ha, x, rest, hx, hcmd⟩⟩
  · have down : t.irq = false := State.done_eq_false (.inr hidle)
    exact ⟨fun _ h1 => by simp [down] at h1, fun _ _ => .inr ha⟩

end Sys2Proof.Machine
end

section
/-! Proofs of the family 20_memory.md: words and their lanes, reads and writes of the payload buffer and the digest, repeated
transactions, and what the host can and cannot do to a running search. -/

namespace Sys2Proof.Machine

/-! ## The lanes of RESULT -/

theorem lane_extractLsb' (c : Count) (a : Nat) {j : Nat} (hj : j < 4) :
    lane (c.extractLsb' a 32) j = c.extractLsb' (a + 8 * j) 8 := by
  apply BitVec.eq_of_getLsbD_eq
  intro i hi
  have hin : 8 * j + i < 32 := by omega
  simp only [lane, BitVec.getLsbD_extractLsb', hi, hin, decide_true, Bool.true_and, Nat.add_assoc]

/-- Settles O7: the eight bytes of `le64` are four from each half, and each is a lane of its half. -/
theorem resultImageIsLe64 : Obligations.ResultImageIsLe64 := by
  intro s
  have lanes (a : Nat) : ((List.range 4).map fun j => lane (s.result.extractLsb' a 32) j) =
      (List.range 4).map fun j => s.result.extractLsb' (a + 8 * j) 8 :=
    List.map_congr_left fun j hj => lane_extractLsb' s.result a (List.mem_range.mp hj)
  have halves : le64 s.result = ((List.range 4).map fun j => s.result.extractLsb' (8 * j) 8) ++
      (List.range 4).map fun j => s.result.extractLsb' (32 + 8 * j) 8 := rfl
  rw [halves, State.resultImage, readWord, readWord, lanes, lanes]
  simp only [Nat.zero_add]

/-! ## Totality -/

theorem exec_total (i : Instr) (s : State) : ∃ t, exec i s = .next t := by
  obtain ⟨t, h, -⟩ := exec_effect i s
  exact ⟨t, h⟩

theorem hostStep_total (s : State) : ∃ t, hostStep s = .next t := by
  rcases hops : s.hostOps with _ | ⟨x | ⟨off, mask, value⟩, rest⟩
  · exact ⟨s, hostStep_of_nil hops⟩
  · rw [hostStep_of_tx hops]
    exact exec_total _ _
  · obtain ⟨u, hu⟩ := exec_total (.rd off) s
    simp [hostStep, hops, hu]

/-- Settles O13: an instruction has one of its effects, and an agent other than the host has a step by definition. -/
theorem everyStepHasANextState : Obligations.EveryStepHasANextState := by
  intro s
  refine ⟨fun i => exec_total i s, ?_⟩
  cases hturn : nextAgent s <;> rw [step_of_nextAgent hturn]
  case host => exact hostStep_total (advance s)
  case ctrl => exact ⟨_, rfl⟩
  case sha => exact ⟨_, rfl⟩
  case platform => exact ⟨_, rfl⟩

/-! ## One read and one accepted write, by what the offset names -/

/-- R99, for a target that is known. -/
theorem exec_rd_of_target {s : State} {off : Word} {g : Target} (h : target s.maxPay off = g) :
    exec (.rd off) s = .next ((readEffect g s).setRdata (readWord g s)) := by
  rw [exec, execRd, h]

/-- R99, for a target whose read is no error and whose word is known. -/
theorem exec_rd_of_readable {s : State} {off w : Word} {g : Target} (h : target s.maxPay off = g)
    (heffect : readEffect g s = s) (hword : readWord g s = w) :
    exec (.rd off) s = .next { s with rdata := w } := by
  rw [exec_rd_of_target h, heffect, hword, State.setRdata]

/-- What an accepted write of `v` makes of the state, for the targets that BUSY locks (R100 to R103). -/
def Target.stored (v : Word) (s : State) : Target → State
  | .difficulty => s.setDifficulty v
  | .plen => s.setPlen v
  | .digest o => s.setDigest (writeDigWord s.digest o v)
  | .payload o => s.writePayWord o v
  | .ctrl | .misaligned | .status | .counterLo | .counterHi | .resultLo | .resultHi | .maxPay | .reserved => s

/-- R100, for a lockable target that no search locks. -/
theorem exec_wr_of_not_busy {s : State} {off : Word} {g : Target} (hb : s.busy = false)
    (hg : target s.maxPay off = g) (h : g.lockable = true) (v : Word) :
    exec (.wr off v) s = .next (g.stored v s) := by
  have free (t : State) : unlessBusy s t = t := if_neg (by simp [hb])
  rw [exec, execWr, hg]
  cases g with
  | difficulty | plen | digest | payload => exact congrArg _ (free _)
  | ctrl | misaligned | status | counterLo | counterHi | resultLo | resultHi | maxPay | reserved =>
    simp [Target.lockable] at h

theorem Target.stored_busy (g : Target) (v : Word) (s : State) : (g.stored v s).busy = s.busy := by
  cases g <;> simp [Target.stored]

theorem Target.stored_maxPay (g : Target) (v : Word) (s : State) : (g.stored v s).maxPay = s.maxPay := by
  cases g <;> simp [Target.stored]

/-! ## Words of the payload buffer and of the digest, written and read back -/

theorem State.payByte_writePayWord_lane (s : State) (o : Nat) (v : Word) {j : Nat} (hj : j < 4) :
    (s.writePayWord o v).payByte (o + j) = lane v j := by
  rw [State.payByte_writePayWord, if_pos (by omega), Nat.add_sub_cancel_left]

theorem State.payByte_writePayWord_other (s : State) (o : Nat) (v : Word) {i : Nat} (hi : i < o ∨ o + 4 ≤ i) :
    (s.writePayWord o v).payByte i = s.payByte i := by
  rw [State.payByte_writePayWord, if_neg (by omega)]

theorem State.payWord_writePayWord (s : State) (o : Nat) (v : Word) : (s.writePayWord o v).payWord o = v := by
  have byte {j : Nat} (hj : j < 4) := s.payByte_writePayWord_lane o v hj
  calc (s.writePayWord o v).payWord o = laneWord (lane v 0) (lane v 1) (lane v 2) (lane v 3) := by
        rw [State.payWord, byte (j := 1) (by decide), byte (j := 2) (by decide), byte (j := 3) (by decide),
          ← byte (j := 0) (by decide), Nat.add_zero]
    _ = v := laneWord_lanes v

theorem digByte_writeDigWord_lane (d : Digest) {o : Nat} (ho : o + 4 ≤ 32) (v : Word) {j : Nat} (hj : j < 4) :
    digByte (writeDigWord d o v) (o + j) = lane v j := by
  rw [digByte_writeDigWord, if_pos (by omega), Nat.add_sub_cancel_left]

theorem digByte_writeDigWord_other (d : Digest) (o : Nat) (v : Word) {i : Nat} (hi : i < o ∨ o + 4 ≤ i) :
    digByte (writeDigWord d o v) i = digByte d i := by
  rw [digByte_writeDigWord, if_neg (by omega)]

theorem digWord_writeDigWord (d : Digest) {o : Nat} (ho : o + 4 ≤ 32) (v : Word) :
    digWord (writeDigWord d o v) o = v := by
  have byte {j : Nat} (hj : j < 4) := digByte_writeDigWord_lane d ho v hj
  calc digWord (writeDigWord d o v) o = laneWord (lane v 0) (lane v 1) (lane v 2) (lane v 3) := by
        rw [digWord, byte (j := 1) (by decide), byte (j := 2) (by decide), byte (j := 3) (by decide),
          ← byte (j := 0) (by decide), Nat.add_zero]
    _ = v := laneWord_lanes v

/-- A digest update touches the digest alone. -/
theorem State.setDigest_restore (s : State) (d : Digest) : { s.setDigest d with digest := s.digest } = s := rfl

/-- Settles O31: PAYLOADk is where the offset says, and the word written there is read back byte by byte and whole. -/
theorem writePayloadWordSetsFourBytes : Obligations.WritePayloadWordSetsFourBytes := by
  intro s off v k hb hk hoff
  have hg : target s.maxPay off = .payload (4 * k) := target_payload hk hoff
  have byte {j : Nat} (hj : j < 4) := s.payByte_writePayWord_lane (4 * k) v hj
  exact ⟨s.writePayWord (4 * k) v, exec_wr_of_not_busy hb hg rfl v, byte (j := 0) (by decide),
    byte (j := 1) (by decide), byte (j := 2) (by decide), byte (j := 3) (by decide),
    fun i => s.payByte_writePayWord_other (4 * k) v, rfl,
    exec_rd_of_readable hg rfl (s.payWord_writePayWord (4 * k) v)⟩

/-- Settles O32: DIGESTk is where the offset says, and the word written there is read back byte by byte and whole. -/
theorem writeDigestWordSetsFourBytes : Obligations.WriteDigestWordSetsFourBytes := by
  intro s off v k hb hk hoff
  have hin : 4 * k + 4 ≤ 32 := by omega
  have byte {j : Nat} (hj : j < 4) := digByte_writeDigWord_lane s.digest hin v hj
  exact ⟨s.setDigest (writeDigWord s.digest (4 * k) v), exec_wr_of_not_busy hb (target_digest hk hoff) rfl v,
    byte (j := 0) (by decide), byte (j := 1) (by decide), byte (j := 2) (by decide), byte (j := 3) (by decide),
    fun i => digByte_writeDigWord_other s.digest (4 * k) v, State.setDigest_restore _ _,
    exec_rd_of_readable (target_digest hk hoff) rfl (digWord_writeDigWord s.digest hin v)⟩

/-! ## Repeated transactions -/

theorem readWord_after_read (g : Target) (s : State) (w : Word) :
    readWord g ((readEffect g s).setRdata w) = readWord g s := by
  cases g <;> rfl

theorem readEffect_after_read (g : Target) (s : State) (w : Word) :
    readEffect g ((readEffect g s).setRdata w) = (readEffect g s).setRdata w := by
  cases g with
  | misaligned | reserved => simp [readEffect, State.raise_access_eq, State.setRdata]
  | ctrl | status | difficulty | plen | counterLo | counterHi | resultLo | resultHi | maxPay | digest | payload => rfl

theorem readEffect_maxPay (g : Target) (s : State) : (readEffect g s).maxPay = s.maxPay := by
  cases g <;> rfl

theorem exec_rd_repeated {s t : State} {off : Word} (h : exec (.rd off) s = .next t) :
    exec (.rd off) t = .next t := by
  obtain rfl := Host.Outcome.next.inj ((exec_rd_of_target rfl).symm.trans h)
  rw [exec_rd_of_target (g := target s.maxPay off) (by rw [State.setRdata_maxPay, readEffect_maxPay]),
    readWord_after_read, readEffect_after_read]
  rfl

theorem writeDigWord_repeated (d : Digest) (o : Nat) (v : Word) :
    writeDigWord (writeDigWord d o v) o v = writeDigWord d o v := by
  apply Digest.ext_bytes
  intro i _
  simp only [digByte_writeDigWord]
  split_ifs <;> rfl

/-- A payload word write lists each of its four bytes. -/
theorem State.find_writePayWord (s : State) (o : Nat) (v : Word) {j : Nat} (hj : j < 4) :
    Memory.find (s.writePayWord o v).payload (o + j) = some (lane v j) := by
  simp only [State.writePayWord, State.setPayload_payload, Memory.find_set]
  interval_cases j <;> simp

/-- In a canonical list the second write stores four bytes that are already there (log 3). -/
theorem State.writePayWord_repeated {s : State} (hs : Memory.wf s.payload = true) (o : Nat) (v : Word) :
    (s.writePayWord o v).writePayWord o v = s.writePayWord o v := by
  have hwf := s.writePayWord_wf o v hs
  have listed {j : Nat} (hj : j < 4) := Memory.set_find_self _ (o + j) _ hwf (s.find_writePayWord o v hj)
  have listed0 : Memory.set (s.writePayWord o v).payload o (lane v 0) = _ := listed (j := 0) (by decide)
  rw [State.writePayWord, listed0, listed (j := 1) (by decide), listed (j := 2) (by decide),
    listed (j := 3) (by decide)]
  rfl

theorem Target.stored_repeated {s : State} (hs : Memory.wf s.payload = true) (g : Target) (v : Word) :
    g.stored v (g.stored v s) = g.stored v s := by
  cases g with
  | digest o => simp only [Target.stored, State.setDigest, writeDigWord_repeated]
  | payload o => exact State.writePayWord_repeated hs o v
  | difficulty | plen | ctrl | misaligned | status | counterLo | counterHi | resultLo | resultHi | maxPay | reserved =>
    rfl

/-- Every offset but CTRL's is out of reach of a write, or is one that BUSY locks (R18, R100). -/
theorem target_unwritable_or_lockable (cap : Word) {off : Word} (h : off ≠ 0x000#32) :
    (target cap off).unwritable = true ∨ (target cap off).lockable = true := by
  have hctrl : target cap off ≠ .ctrl := fun e => by
    have h0 := target_sound cap off
    rw [e] at h0
    exact h (BitVec.eq_of_toNat_eq h0)
  cases hg : target cap off with
  | ctrl => exact absurd hg hctrl
  | difficulty | plen | digest | payload => exact .inr rfl
  | misaligned | status | counterLo | counterHi | resultLo | resultHi | maxPay | reserved => exact .inl rfl

theorem exec_wr_repeated {s t : State} {off v : Word} (hs : s.Inv) (hoff : off ≠ 0x000#32)
    (h : exec (.wr off v) s = .next t) : exec (.wr off v) t = .next t := by
  rcases target_unwritable_or_lockable s.maxPay hoff with hg | hg
  · obtain rfl := Host.Outcome.next.inj ((exec_wr_of_unwritable hg v).symm.trans h)
    exact exec_wr_of_unwritable (s := { s with errAccess := true }) hg v
  cases hb : s.busy with
  | true =>
    obtain rfl := Host.Outcome.next.inj ((exec_wr_of_lockable hb hg v).symm.trans h)
    exact exec_wr_of_lockable (s := { s with errBusy := true }) hb hg v
  | false =>
    obtain rfl := Host.Outcome.next.inj ((exec_wr_of_not_busy hb rfl hg v).symm.trans h)
    rw [exec_wr_of_not_busy (g := target s.maxPay off) (by rw [Target.stored_busy, hb])
      (by rw [Target.stored_maxPay]) hg, Target.stored_repeated hs.payloadForm]

/-- Settles O33: a read writes nothing that the same read returns, and a write, done or refused, finds its own outcome in place. -/
theorem repeatedTransactionChangesNothing : Obligations.RepeatedTransactionChangesNothing :=
  fun _ _ _ _ hs => ⟨exec_rd_repeated, exec_wr_repeated hs⟩

/-! ## What the host cannot do to a running search -/

/-- No instruction reaches the host's lines or the choice of agents. -/
theorem HostEffect.lines_and_turns_eq {i : Instr} {s t : State} (h : HostEffect i s t) :
    t.hostOps = s.hostOps ∧ t.schedule = s.schedule ∧ t.draws = s.draws := by
  cases h <;> exact ⟨rfl, rfl, rfl⟩

theorem State.done_eq_false_of_busy {s : State} (h : s.busy = true) : s.done = false := by
  rcases s.busy_iff.mp h with hc | hc | hc <;> rw [State.done, hc]

/-- R54, R127: what is left of an instruction's effects while BUSY is a read, an error bit, or CLEAR's on the error bits. -/
theorem HostEffect.sameBlock_of_busy {i : Instr} {s t : State} (h : HostEffect i s t) (hb : s.busy = true) :
    SameBlock s t := by
  cases h with
  | nothing | read | readError | raised | clear => exact ⟨rfl, rfl, rfl, rfl, rfl, rfl, rfl, rfl, rfl, rfl⟩
  | check hfree | search hfree | difficulty hfree | plen hfree | digest hfree | payload hfree =>
    exact absurd hb (by simp [hfree])
  | clearDone hd => exact absurd hd (by simp [State.done_eq_false_of_busy hb])

/-- Settles O41: the effects that write a field of the block other than an error bit need BUSY to be 0. -/
theorem hostCannotDisturbASearch : Obligations.HostCannotDisturbASearch :=
  fun _ _ _ hb h => ⟨(effect_of_exec h).sameBlock_of_busy hb, (effect_of_exec h).lines_and_turns_eq⟩

/-! ## The progress of a search -/

theorem SameBlock.progress {s t : State} (h : SameBlock s t) : t.progress = s.progress := by
  rw [State.progress, State.progress, h.counter, h.ctrl]

theorem ctrlStep_of_wait {s : State} (h : s.ctrl = .wait) : ctrlStep s = s := by rw [ctrlStep, h]

theorem shaStep_of_not_wait {s : State} (hs : s.Inv) (h : s.ctrl ≠ .wait) : shaStep s = s := by
  rw [shaStep, hs.req_eq_none h]

/-- R81, R85, R94: ISSUE and TEST are one search step each. -/
theorem ctrlStep_progress {s : State} (hb : s.busy = true) (hw : s.ctrl ≠ .wait) :
    (ctrlStep s).progress = s.progress + 1 := by
  rcases ctrlStep_cases s with ⟨hi, ht, _⟩ | ⟨hi, e⟩ | ⟨ht, _, e⟩ | ⟨ht, _, hlast, e⟩ | ⟨ht, _, hlast, e⟩
  · exact absurd (s.busy_iff.mp hb) (by tauto)
  · simp [e, State.progress, hi]
  · simp [e, State.progress, ht]
  · have := (Count.succ_eq_zero_iff s.counter).mp hlast
    simp [e, State.progress, ht, this]
  · have := Count.toNat_succ hlast
    simp only [e, State.progress, ht, this]
    omega

/-- R83, R94: the response is one search step. -/
theorem shaStep_progress {s : State} (hs : s.Inv) (hw : s.ctrl = .wait) :
    (shaStep s).progress = s.progress + 1 := by
  rw [shaStep, hs.message hw]
  simp [respondStep, State.progress, hw]

/-- Settles O51: one clause for each effect of a step; the agent that the search does not wait for finds no step enabled. -/
theorem searchAdvancesStepByStep : Obligations.SearchAdvancesStepByStep := by
  intro s t hs hb h
  have hadv := advance_sameBlock s
  have hs' := advance_inv hs
  cases effect_of_step h with
  | quiet ha hblock _ => exact ⟨by simp [ha], fun _ => hblock⟩
  | transaction ha _ heff =>
    have hblock := heff.sameBlock_of_busy (by simpa using hb)
    exact ⟨by simp [ha], fun _ => (hadv.trans (setHostOps_sameBlock _ _)).trans hblock⟩
  | ctrl ha =>
    rw [← hadv.progress]
    refine ⟨fun hturn => ctrlStep_progress (by simpa using hb) ?_, fun hturn => ?_⟩
    · simpa [ha] using hturn
    · rwa [ctrlStep_of_wait (by simpa [ha] using hturn)]
  | sha ha =>
    rw [← hadv.progress]
    refine ⟨fun hturn => shaStep_progress hs' ?_, fun hturn => ?_⟩
    · simpa [ha] using hturn
    · rwa [shaStep_of_not_wait hs' (by simpa [ha] using hturn)]
  | reset ha => exact ⟨by simp [ha], by simp [ha]⟩

/-! ## Reads of COUNTER around a TEST step -/

@[simp] theorem target_counterLoOffset (cap : Word) : target cap 0x010#32 = .counterLo := by simp [target]

@[simp] theorem target_counterHiOffset (cap : Word) : target cap 0x014#32 = .counterHi := by simp [target]

/-- R85, R86: a TEST step that fails counts. -/
theorem ctrlStep_counter_of_failed_test {s : State} (ht : s.ctrl = .test)
    (hpred : pred s.digest s.difficulty = false) : (ctrlStep s).counter = s.counter + 1 := by
  rcases ctrlStep_cases s with ⟨_, hne, _⟩ | ⟨hi, _⟩ | ⟨_, hp, _⟩ | ⟨_, _, hlast, e⟩ | ⟨_, _, _, e⟩
  · exact absurd ht hne
  · simp [ht] at hi
  · simp [hpred] at hp
  · rw [e, hlast]
  · rw [e]

/-- Settles O56: LO is read of 0xFFFFFFFF, and HI of its successor, which the TEST step between the reads has written. -/
theorem counterReadMayTear : Obligations.CounterReadMayTear := by
  intro s ht hc hpred
  have hlo : exec (.rd 0x010#32) s = .next (s.setRdata 0xFFFFFFFF#32) :=
    exec_rd_of_readable (target_counterLoOffset _) rfl (by rw [readWord, hc]; decide)
  have hnext : (ctrlStep (s.setRdata 0xFFFFFFFF#32)).counter = 0x100000000#64 := by
    rw [ctrlStep_counter_of_failed_test (s := s.setRdata 0xFFFFFFFF#32) ht hpred, State.setRdata_counter, hc]
    decide
  have hhi : exec (.rd 0x014#32) (ctrlStep (s.setRdata 0xFFFFFFFF#32)) =
      .next ((ctrlStep (s.setRdata 0xFFFFFFFF#32)).setRdata 0x00000001#32) :=
    exec_rd_of_readable (target_counterHiOffset _) rfl (by rw [readWord, hnext]; decide)
  exact ⟨_, _, hlo, hhi, rfl, rfl, hnext⟩

end Sys2Proof.Machine
end

section
/-! Proofs of the family 30_encoding.md: the command decoder as a table, the bytes and the records of the instructions, and how
the host's lines reach `exec`. -/

namespace Sys2Proof.Machine

/-! ## The command decoder -/

theorem decodeCmd_nop {w : Word} (h : decodeCmd w = .nop) : w = 0x00000000#32 := by
  rw [decodeCmd_eq] at h
  split_ifs at h with h0
  exact BitVec.eq_of_toNat_eq h0

theorem decodeCmd_illegal_iff (w : Word) : decodeCmd w = .illegal ↔ 4 ≤ w.toNat := by
  rw [decodeCmd_eq]
  split_ifs <;> simp only [false_iff, true_iff] <;> omega

/-- R60's two field tests are one bound. -/
theorem cmdFields_legal_iff (w : Word) :
    w.extractLsb' 4 28 = 0#28 ∧ (w.extractLsb' 0 4).toNat ≤ 3 ↔ w.toNat < 4 := by
  rw [extract_high_eq_zero_iff, extract_low_toNat]
  omega

/-- Settles O2: a word that decodes to a command is that command's word, and the other words are illegal. -/
theorem commandDecoderMap : Obligations.CommandDecoderMap := by
  intro w
  refine ⟨⟨decodeCmd_nop, ?nop⟩, ⟨decodeCmd_check, ?check⟩, ⟨decodeCmd_search, ?search⟩, ⟨decodeCmd_clear, ?clear⟩,
    decodeCmd_illegal_iff w⟩
  all_goals
    rintro rfl
    rfl

/-! ## Writes to CTRL -/

@[simp] theorem target_ctrlOffset (cap : Word) : target cap 0x000#32 = .ctrl := by simp [target]

/-- R66, R100: a write to CTRL is the command its data holds. -/
theorem exec_wr_ctrl (w : Word) (s : State) : exec (.wr 0x000#32 w) s = execCommand w s := by
  rw [exec, execWr, target_ctrlOffset]

theorem State.raise_cmd_eq (s : State) : s.raise .cmd = { s with errCmd := true } := by simp [State.raise]

/-- Settles O3: legality as a bound on the word, and the arm of an illegal word in a write to CTRL. -/
theorem illegalCommandRaisesErrCmdOnly : Obligations.IllegalCommandRaisesErrCmdOnly := by
  intro w s
  refine ⟨?legal, fun hillegal => ?effect⟩
  case legal => rw [Ne, decodeCmd_illegal_iff, cmdFields_legal_iff, not_le]
  case effect => rw [exec_wr_ctrl, execCommand, hillegal, State.raise_cmd_eq]

/-- What the command decoder answers for a word, run as an instruction, is what the word does in CTRL (R66). -/
theorem execCommand_of_toInstr {w : Word} {i : Instr} (h : (decodeCmd w).toInstr = .ok i) (s : State) :
    execCommand w s = exec i s := by
  rw [execCommand]
  cases hc : decodeCmd w with
  | nop | check | search | clear =>
    rw [hc] at h
    obtain rfl := Except.ok.inj h
    rfl
  | illegal => simp [hc, Cmd.toInstr] at h

/-- R59's table. -/
theorem Instr.cmdWord_cases {i : Instr} {w : Word} (h : i.cmdWord = some w) :
    (i = .nop ∧ w = 0x00000000#32) ∨ (i = .check ∧ w = 0x00000001#32) ∨ (i = .search ∧ w = 0x00000002#32) ∨
      (i = .clear ∧ w = 0x00000003#32) := by
  cases i with
  | nop | check | search | clear =>
    obtain rfl := Option.some.inj h
    simp
  | rd | wr => cases h

theorem decodeCmd_cmdWord {i : Instr} {w : Word} (h : i.cmdWord = some w) : (decodeCmd w).toInstr = .ok i := by
  rcases Instr.cmdWord_cases h with ⟨rfl, rfl⟩ | ⟨rfl, rfl⟩ | ⟨rfl, rfl⟩ | ⟨rfl, rfl⟩ <;> rfl

/-- Settles O9: a write to CTRL is the command its data holds, and the record of that write decodes to it. -/
theorem commandRunsWhenWrittenToCtrl : Obligations.CommandRunsWhenWrittenToCtrl := by
  intro s w i hw
  have hrun (t : State) : exec (.wr 0x000#32 w) t = exec i t :=
    (exec_wr_ctrl w t).trans (execCommand_of_toInstr (decodeCmd_cmdWord hw) t)
  refine ⟨hrun s, fun rest hturn hline => ?_⟩
  rw [stepRunsTheDecodedTransaction s _ rest (.wr 0x000#32 w) hturn hline (by simp), hrun]

/-! ## Encode and decode -/

/-- The decoder on the four bytes of a command word. -/
theorem decode_leBytes_word (w : Word) : decode (leBytes 4 w.toNat) = (decodeCmd w).toInstr := by
  rw [decode_cmdBytes w.isLt, BitVec.ofNat_toNat, BitVec.setWidth_eq]

/-- A command is encoded as the bytes of its word (R58, R59). -/
theorem encode_of_cmdWord {i : Instr} {w : Word} (h : i.cmdWord = some w) : encode i = leBytes 4 w.toNat := by
  rcases Instr.cmdWord_cases h with ⟨rfl, rfl⟩ | ⟨rfl, rfl⟩ | ⟨rfl, rfl⟩ | ⟨rfl, rfl⟩ <;> rfl

theorem decode_encode_of_cmdWord {i : Instr} {w : Word} (h : i.cmdWord = some w) : decode (encode i) = .ok i := by
  rw [encode_of_cmdWord h, decode_leBytes_word, decodeCmd_cmdWord h]

/-- Settles O4: a command by its word, a transaction by its record. -/
theorem decodeEncodeAgree : Obligations.DecodeEncodeAgree := by
  intro i
  cases i with
  | nop | check | search | clear => exact decode_encode_of_cmdWord rfl
  | rd off =>
    calc decode (leBytes 9 (rdTx off).toNat) = .ok (decodeBustx (rdTx off)) := decode_leBytes_busTx _
      _ = .ok (.rd off) := by rw [decodeBustx_rdTx]
  | wr off v =>
    calc decode (leBytes 9 (wrTx off v).toNat) = .ok (decodeBustx (wrTx off v)) := decode_leBytes_busTx _
      _ = .ok (.wr off v) := by rw [decodeBustx_wrTx]

/-- Settles O1: the decoder run on eight written words. -/
theorem tableWordsDecode : Obligations.TableWordsDecode := by
  unfold Obligations.TableWordsDecode
  decide

/-! ## Records -/

/-- Bit 64 of a record as a field of one bit (R61). -/
theorem busTx_topField (t : BusTx) : t.extractLsb' 64 1 = BitVec.ofBool (t.getLsbD 64) := by
  apply BitVec.eq_of_getLsbD_eq
  intro i hi
  obtain rfl : i = 0 := by omega
  simp

/-- Bits 64..32 of a record are bit 64 and the offset (R61). -/
theorem busTx_highFields (t : BusTx) :
    BitVec.ofBool (t.getLsbD 64) ++ t.extractLsb' 32 32 = t.extractLsb' 32 33 := by
  rw [← busTx_topField]
  exact BitVec.extractLsb'_append_extractLsb'_eq_extractLsb' rfl

/-- A record is its three fields (R61). -/
theorem busTx_fields (t : BusTx) :
    BitVec.ofBool (t.getLsbD 64) ++ t.extractLsb' 32 32 ++ t.extractLsb' 0 32 = t := by
  rw [busTx_highFields]
  exact BitVec.extractLsb'_append_extractLsb'

theorem decodeBustx_of_write {t : BusTx} (h : t.getLsbD 64 = true) :
    decodeBustx t = .wr (t.extractLsb' 32 32) (t.extractLsb' 0 32) := if_pos h

theorem decodeBustx_of_read {t : BusTx} (h : t.getLsbD 64 = false) : decodeBustx t = .rd (t.extractLsb' 32 32) :=
  if_neg (ne_true_of_eq_false h)

/-- Settles O5: no record's bytes are rejected, and a record is put together again from its fields. -/
theorem everyRecordIsATransaction : Obligations.EveryRecordIsATransaction := by
  intro t
  refine ⟨decode_leBytes_busTx t, fun hwrite => ?write, fun hread => ?read⟩
  case write =>
    have hfields := busTx_fields t
    rw [hwrite] at hfields
    rw [decodeBustx_of_write hwrite]
    exact hfields
  case read =>
    have hhigh := busTx_highFields t
    rw [hread] at hhigh
    rw [decodeBustx_of_read hread, ← hhigh]
    rfl

/-! ## POLL -/

theorem hostStep_of_poll {s u : State} {off mask value : Word} {rest : List HostOp}
    (h : s.hostOps = .poll off mask value :: rest) (hread : exec (.rd off) s = .next u) :
    hostStep s = .next (if u.rdata &&& mask = value then u.setHostOps rest else u) := by
  rw [hostStep, h]
  simp only [hread]

/-- Settles O11: a read always answers and leaves the host's lines, and the line's test picks what becomes of the line. -/
theorem pollRepeatsUntilMatch : Obligations.PollRepeatsUntilMatch := by
  intro s off mask value rest hturn hline
  have hline' : (advance s).hostOps = .poll off mask value :: rest := by rw [advance_hostOps, hline]
  obtain ⟨u, hread⟩ := exec_total (.rd off) (advance s)
  obtain ⟨hlines, -⟩ := (effect_of_exec hread).lines_and_turns_eq
  have hstep := (step_of_nextAgent hturn).trans (hostStep_of_poll hline' hread)
  refine ⟨u, hread, fun hmatch => ?matched, fun hmiss => ⟨?waits, hlines.trans (advance_hostOps s)⟩⟩
  case matched => rw [hstep, if_pos hmatch, State.setHostOps]
  case waits => rw [hstep, if_neg hmiss]

/-! ## `withFetchWord` -/

/-- The turn and the line that `placeTx` puts first are the ones the next step uses up. -/
theorem step_placeTx (s : State) (t : BusTx) : step (s.placeTx t) = exec (decodeBustx t) s := rfl

theorem rowBytes_cases {nbits n : Nat} (h : rowBytes nbits = some n) : n = 4 ∨ n = 9 := by
  unfold rowBytes at h
  split_ifs at h <;> simp only [Option.some.injEq] at h <;> omega

theorem decodeTableWord_eq_some {nbits w : Nat} {i : Instr} (h : decodeTableWord nbits w = some i) :
    ∃ n, rowBytes nbits = some n ∧ w < 256 ^ n ∧ decode (leBytes n w) = .ok i := by
  unfold decodeTableWord at h
  split at h
  · cases h
  next n hn =>
    split_ifs at h with hw
    split at h
    next j hj => exact ⟨n, hn, hw, Option.some.inj h ▸ hj⟩
    next => cases h

theorem tableTx_of_word {nbits w : Nat} (hn : rowBytes nbits = some 4) (hw : w < 2 ^ 32) :
    tableTx nbits w = some (wrTx 0 (BitVec.ofNat 32 w)) := by
  rw [tableTx, hn]
  exact if_pos hw

theorem tableTx_of_record {nbits w : Nat} (hn : rowBytes nbits = some 9) (hw : w < 2 ^ 65) :
    tableTx nbits w = some (BitVec.ofNat 65 w) := by
  rw [tableTx, hn]
  exact if_pos (decide_eq_true hw)

/-- The transaction that delivers a row's word runs the row's instruction (R57, R61, R66). -/
theorem tableTx_runs {nbits w : Nat} {i : Instr} (h : decodeTableWord nbits w = some i) :
    ∃ t, tableTx nbits w = some t ∧ ∀ s, exec (decodeBustx t) s = exec i s := by
  obtain ⟨n, hn, hw, hdec⟩ := decodeTableWord_eq_some h
  rcases rowBytes_cases hn with rfl | rfl
  case inl =>
    rw [decode_cmdBytes hw] at hdec
    refine ⟨wrTx 0 (BitVec.ofNat 32 w), tableTx_of_word hn hw, fun s => ?_⟩
    rw [decodeBustx_wrTx]
    exact (exec_wr_ctrl _ s).trans (execCommand_of_toInstr hdec s)
  case inr =>
    rw [decode_recordBytes hw] at hdec
    split_ifs at hdec with hrecord
    exact ⟨BitVec.ofNat 65 w, tableTx_of_record hn hrecord, fun s => by rw [Except.ok.inj hdec]⟩

/-- Settles O12: the row's word is placed as its transaction, which is what the next step runs. -/
theorem fetchWordRunsNext : Obligations.FetchWordRunsNext := by
  intro s nbits w i h
  obtain ⟨t, ht, hrun⟩ := tableTx_runs h
  calc step (s.withFetchWord nbits w) = step (s.placeTx t) := by rw [State.withFetchWord, State.placeTableWord, ht]
    _ = exec (decodeBustx t) s := step_placeTx s t
    _ = exec i s := hrun s

end Sys2Proof.Machine
end

section
/-! Proofs of the family 40_predicate.md: the predicate as a test of the digest's bits, the laws that follow from it, CHECK, and
searches that no digest can end. -/

namespace Sys2Proof.Machine

/-! ## The predicate's byte tests as bit tests -/

/-- Bit `8 * i + j` in reading order is in byte `i` (R43). -/
theorem digestBit_of_byte (d : Digest) (i : Nat) {j : Nat} (hj : j < 8) :
    digestBit d (8 * i + j) = (digByte d i).getLsbD (7 - j) := by
  rw [digestBit, Nat.mul_add_div (by decide), Nat.div_eq_of_lt hj, Nat.mul_add_mod, Nat.mod_eq_of_lt hj, Nat.add_zero]

/-- Source step 2: whole zero bytes. -/
theorem zeroBytes_iff (d : Digest) (q : Nat) :
    (∀ i, i < q → digByte d i = 0x00#8) ↔ ∀ k, k < 8 * q → digestBit d k = false := by
  constructor
  · intro h k hk
    rw [digestBit, h (k / 8) (by omega), BitVec.getLsbD_zero]
  · intro h i hi
    refine (byte_eq_zero_iff _).mpr fun j hj => ?_
    rw [← digestBit_of_byte d i hj]
    exact h _ (by omega)

/-- Source step 3: the top bits of the next byte. -/
theorem topBits_iff (d : Digest) (q : Nat) {r : Nat} (hr : r < 8) :
    digByte d q &&& topMask r = 0x00#8 ↔ ∀ j, j < r → digestBit d (8 * q + j) = false := by
  rw [and_topMask_eq_zero_iff _ hr]
  refine forall₂_congr fun j hj => ?_
  rw [digestBit_of_byte d q (hj.trans hr)]

/-- R67 with the mask test always made: for `r = 0` it passes, so that the skip changes nothing (R68). -/
theorem pred_iff_bytes (d : Digest) (n : Word) :
    pred d n = true ↔ n.toNat ≤ 256 ∧ (∀ i, i < n.toNat / 8 → digByte d i = 0x00#8) ∧
      digByte d (n.toNat / 8) &&& topMask (n.toNat % 8) = 0x00#8 := by
  have skipped (b : Byte) : b &&& topMask 0 = 0x00#8 := (and_topMask_eq_zero_iff b (by decide)).mpr (by simp)
  rcases Nat.lt_or_ge 256 n.toNat with hn | hn
  · simp [pred, hn]
  rw [pred, if_neg (not_lt.mpr hn)]
  rcases Nat.eq_zero_or_pos (n.toNat % 8) with hr | hr
  · simp [hn, hr, skipped]
  · simp [hn, hr]

/-- R67: the predicate tests the first `n` bits in reading order, and fails above 256. -/
theorem pred_iff_digestBits (d : Digest) (n : Word) :
    pred d n = true ↔ n.toNat ≤ 256 ∧ ∀ k, k < n.toNat → digestBit d k = false := by
  have hdiv := Nat.div_add_mod n.toNat 8
  have hmod : n.toNat % 8 < 8 := Nat.mod_lt _ (by decide)
  rw [pred_iff_bytes, zeroBytes_iff, topBits_iff d _ hmod]
  refine and_congr_right fun _ => ⟨fun ⟨hfull, htop⟩ k hk => ?_, fun h => ⟨fun k _ => h k ?_, fun j _ => h _ ?_⟩⟩
  · rcases Nat.lt_or_ge k (8 * (n.toNat / 8)) with hlt | hge
    · exact hfull k hlt
    · obtain ⟨j, rfl⟩ := Nat.exists_eq_add_of_le hge
      exact htop j (by omega)
  all_goals omega

/-- Settles O18: the bit test, with the bit of R43 written out. -/
theorem predTestsTheFirstBits : Obligations.PredTestsTheFirstBits := pred_iff_digestBits

/-! ## The leading-zero count -/

/-- R72: `lz` is where the first 1 bit stands, or 256. -/
theorem leadingZeros_spec (d : Digest) :
    leadingZeros d ≤ 256 ∧ (∀ k, k < leadingZeros d → digestBit d k = false) ∧
      (leadingZeros d < 256 → digestBit d (leadingZeros d) = true) := by
  obtain ⟨-, hle, hzeros, hone⟩ := leadingZerosFrom_spec d 256 0
  exact ⟨hle, fun k => hzeros k (Nat.zero_le k), hone⟩

theorem pred_iff_le_leadingZeros (d : Digest) (n : Word) : pred d n = true ↔ n.toNat ≤ leadingZeros d := by
  obtain ⟨hle, hzeros, hone⟩ := leadingZeros_spec d
  rw [pred_iff_digestBits]
  constructor
  · rintro ⟨hn, hbits⟩
    by_contra hlt
    have hzero : digestBit d (leadingZeros d) = false := hbits _ (not_le.mp hlt)
    simp [hone (by omega)] at hzero
  · exact fun h => ⟨h.trans hle, fun k hk => hzeros k (hk.trans_le h)⟩

/-- Settles O19: what the count stops at, and the predicate against it. -/
theorem predIsLeadingZeroCount : Obligations.PredIsLeadingZeroCount := by
  intro d
  obtain ⟨hle, hzeros, hone⟩ := leadingZeros_spec d
  refine ⟨hle, hzeros, hone, fun n => ?_⟩
  rw [Bool.eq_iff_iff, decide_eq_true_iff, pred_iff_le_leadingZeros]

/-! ## The digest as a big-endian number -/

/-- The first `m` bytes of a digest as a big-endian number (R73). -/
def digestValue (d : Digest) (m : Nat) : Nat :=
  ∑ i ∈ Finset.range m, (digByte d i).toNat * 2 ^ (8 * (m - 1 - i))

/-- One more byte is one more digit of base 256. -/
theorem digestValue_succ (d : Digest) (m : Nat) :
    digestValue d (m + 1) = 2 ^ 8 * digestValue d m + (digByte d m).toNat := by
  have shifted : ∀ i ∈ Finset.range m, (digByte d i).toNat * 2 ^ (8 * (m + 1 - 1 - i)) =
      2 ^ 8 * ((digByte d i).toNat * 2 ^ (8 * (m - 1 - i))) := by
    intro i hi
    have him : i < m := Finset.mem_range.mp hi
    rw [show 8 * (m + 1 - 1 - i) = 8 + 8 * (m - 1 - i) by omega, pow_add, Nat.mul_left_comm]
  rw [digestValue, Finset.sum_range_succ, Finset.sum_congr rfl shifted, ← Finset.mul_sum, ← digestValue]
  simp

theorem digestValue_lt (d : Digest) (m : Nat) : digestValue d m < 2 ^ (8 * m) := by
  induction m with
  | zero => simp [digestValue]
  | succ m ih =>
    have hbyte := (digByte d m).isLt
    rw [digestValue_succ, show 8 * (m + 1) = 8 + 8 * m by omega, pow_add]
    omega

/-- Reading order is from the most significant bit down. -/
theorem digestValue_testBit (d : Digest) {m k : Nat} (hk : k < 8 * m) :
    (digestValue d m).testBit (8 * m - 1 - k) = digestBit d k := by
  induction m with
  | zero => omega
  | succ m ih =>
    rw [digestValue_succ, Nat.testBit_two_pow_mul_add _ (digByte d m).isLt]
    rcases Nat.lt_or_ge k (8 * m) with hlt | hge
    · rw [if_neg (by omega), ← ih hlt]
      congr 1
      omega
    · obtain ⟨j, rfl⟩ := Nat.exists_eq_add_of_le hge
      rw [if_pos (by omega), digestBit_of_byte d m (by omega), BitVec.getLsbD]
      congr 1
      omega

theorem digestValue_lt_iff (d : Digest) {n : Nat} (hn : n ≤ 256) :
    digestValue d 32 < 2 ^ (256 - n) ↔ ∀ k, k < n → digestBit d k = false := by
  constructor
  · intro h k hk
    rw [← digestValue_testBit d (m := 32) (by omega)]
    exact Nat.testBit_lt_two_pow (h.trans_le (Nat.pow_le_pow_right (by decide) (by omega)))
  · intro h
    refine Nat.lt_pow_two_of_testBit _ fun i hi => ?_
    rcases Nat.lt_or_ge i 256 with hlt | hge
    · have hbit := digestValue_testBit d (m := 32) (k := 255 - i) (by omega)
      rw [show 8 * 32 - 1 - (255 - i) = i by omega, h _ (by omega)] at hbit
      exact hbit
    · exact Nat.testBit_lt_two_pow ((digestValue_lt d 32).trans_le (Nat.pow_le_pow_right (by decide) hge))

/-- Settles O20: the number is below `2^(256-n)` iff its top `n` bits, the first in reading order, are 0. -/
theorem predIsBigEndianBound : Obligations.PredIsBigEndianBound := by
  intro d n
  rw [pred_iff_digestBits]
  exact and_congr_right fun hn => (digestValue_lt_iff d hn).symm

/-! ## Monotonicity -/

theorem pred_mono {d : Digest} {m n : Word} (h : pred d n = true) (hmn : m ≤ n) : pred d m = true := by
  rw [pred_iff_le_leadingZeros] at h ⊢
  exact le_trans hmn h

/-- R89: where a counter solves, there is a least one. -/
theorem exists_isSolution_le {p : List Byte} {n : Word} {c' : Count} (h : solves p n c' = true) :
    ∃ c, IsSolution p n c ∧ c ≤ c' := by
  obtain ⟨c, hc, hleast⟩ := (measure BitVec.toNat).wf.has_min {c : Count | solves p n c = true} ⟨c', h⟩
  have hle : c ≤ c' := BitVec.not_lt.mp (hleast c' h)
  exact ⟨c, ⟨hc, fun a ha => eq_false_of_ne_true fun hsolves => hleast a hsolves ha⟩, hle⟩

/-- Settles O21: the solution for `n` solves for `m` too, so that the least one for `m` is at most it. -/
theorem predAndSolutionsMonotone : Obligations.PredAndSolutionsMonotone := by
  refine ⟨fun _ _ _ => pred_mono, fun p m n c' hmn ⟨hsolves, _⟩ => ?_⟩
  exact exists_isSolution_le (pred_mono (n := n) hsolves hmn)

/-! ## The edges of the difficulty -/

/-- R71. -/
theorem pred_eq_false_of_gt (d : Digest) {n : Word} (h : 257 ≤ n.toNat) : pred d n = false := if_pos h

/-- Settles O22: no bit, all bits, and the guard. -/
theorem predAtTheEdges : Obligations.PredAtTheEdges := by
  intro d
  refine ⟨?none, ?all, fun _ => pred_eq_false_of_gt d⟩
  case none => exact (pred_iff_digestBits d 0#32).mpr ⟨by decide, by simp⟩
  case all =>
    rw [pred_iff_digestBits, zeroBytes_iff]
    exact and_iff_right le_rfl

/-! ## CHECK -/

/-- Settles O24: the two branches of CHECK. -/
theorem checkWritesPass : Obligations.CheckWritesPass := by
  refine fun s => ⟨fun hb => ?free, fun hb => ?refused⟩
  case free => rw [exec, execCheck, if_neg (by simp [hb]), State.setPass]
  case refused => rw [exec, execCheck, if_pos hb, State.raise_busy_eq]

/-! ## A difficulty that no digest meets -/

theorem ctrlStep_difficulty (s : State) : (ctrlStep s).difficulty = s.difficulty := by
  rcases ctrlStep_cases s with ⟨_, _, e⟩ | ⟨_, e⟩ | ⟨_, _, e⟩ | ⟨_, _, _, e⟩ | ⟨_, _, _, e⟩ <;> rw [e]

theorem shaStep_difficulty (s : State) : (shaStep s).difficulty = s.difficulty := by
  rcases shaStep_cases s with ⟨_, e⟩ | ⟨_, _, e⟩ <;> rw [e]

theorem shaStep_busy {s : State} (hb : s.busy = true) : (shaStep s).busy = true := by
  rcases shaStep_cases s with ⟨_, e⟩ | ⟨_, _, e⟩ <;> rw [e]
  · exact hb
  · rfl

/-- R85: a search whose test fails goes on, or is exhausted after the last counter. -/
theorem ctrlStep_of_failing_search {s : State} (hb : s.busy = true) (hpred : pred s.digest s.difficulty = false) :
    (ctrlStep s).busy = true ∨ (ctrlStep s).ctrl = .exhausted ∧ s.counter.toNat = 2 ^ 64 - 1 := by
  rcases ctrlStep_cases s with ⟨_, _, e⟩ | ⟨_, e⟩ | ⟨_, hp, _⟩ | ⟨_, _, hlast, e⟩ | ⟨_, _, _, e⟩
  · exact .inl (by rw [e]; exact hb)
  · exact .inl (by rw [e]; rfl)
  · simp [hpred] at hp
  · exact .inr ⟨by rw [e], (Count.succ_eq_zero_iff _).mp hlast⟩
  · exact .inl (by rw [e]; rfl)

/-- Settles O55: while BUSY the host reaches neither DIFFICULTY nor STATE, and every test fails. -/
theorem unsatisfiableDifficultyNeverFinds : Obligations.UnsatisfiableDifficultyNeverFinds := by
  intro s t _ hb hn hplatform h
  have hb' : (advance s).busy = true := (advance_busy s).trans hb
  have kept (hblock : SameBlock s t) : t.difficulty = s.difficulty ∧
      (t.busy = true ∨ t.ctrl = .exhausted ∧ s.counter.toNat = 2 ^ 64 - 1) :=
    ⟨hblock.difficulty, .inl (hblock.busy.trans hb)⟩
  cases effect_of_step h with
  | quiet _ hblock _ => exact kept hblock
  | transaction _ _ heff =>
    exact kept ((advance_sameBlock s).trans ((setHostOps_sameBlock _ _).trans (heff.sameBlock_of_busy hb')))
  | ctrl _ =>
    have hpred : pred (advance s).digest (advance s).difficulty = false :=
      pred_eq_false_of_gt _ (by rwa [advance_difficulty])
    have hend := ctrlStep_of_failing_search hb' hpred
    rw [advance_counter] at hend
    exact ⟨(ctrlStep_difficulty _).trans (advance_difficulty s), hend⟩
  | sha _ => exact ⟨(shaStep_difficulty _).trans (advance_difficulty s), .inl (shaStep_busy hb')⟩
  | reset ha => exact absurd ha hplatform

end Sys2Proof.Machine
end

section
/-! Proofs of the family 41_search.md: SEARCH, the three internal steps, the search they make step by step and how it ends, and
the schedules that bring it to its end. -/

namespace Sys2Proof.Machine

/-! ## SEARCH -/

theorem exec_search_of_accepted {s : State} (hb : s.busy = false) (hp : s.plen.toNat ≤ s.maxPay.toNat) :
    exec .search s = .next (startSearch s) := by
  rw [exec, execSearch, if_neg (by simp [hb]), if_neg (not_lt.mpr hp)]

theorem State.raise_param_eq (s : State) : s.raise .param = { s with errParam := true } := by simp [State.raise]

/-- Settles O25: the three branches of SEARCH. -/
theorem searchStartsOrIsRefused : Obligations.SearchStartsOrIsRefused := by
  refine fun s => ⟨exec_search_of_accepted, fun hb => ?running, fun hb hp => ?tooLong⟩
  case running => rw [exec, execSearch, if_pos hb, State.raise_busy_eq]
  case tooLong => rw [exec, execSearch, if_neg (by simp [hb]), if_pos hp, State.raise_param_eq]

/-! ## The internal steps, by the state they find -/

theorem ctrlStep_of_issue {s : State} (h : s.ctrl = .issue) : ctrlStep s = issueStep s := by rw [ctrlStep, h]

theorem ctrlStep_of_not_busy {s : State} (hb : s.busy = false) : ctrlStep s = s := by
  cases hc : s.ctrl with
  | idle | wait | found | exhausted => rw [ctrlStep, hc]
  | issue | test => simp [State.busy, hc] at hb

theorem shaStep_of_not_busy {s : State} (hs : s.Inv) (hb : s.busy = false) : shaStep s = s := by
  rw [shaStep, hs.req_eq_none_of_not_busy hb]

theorem shaStep_of_request {s : State} {m : List Byte} (h : s.req = some m) : shaStep s = respondStep s m := by
  rw [shaStep, h]

/-- R85: a TEST step at a passing digest. -/
theorem ctrlStep_of_passed_test {s : State} (ht : s.ctrl = .test) (hpred : pred s.digest s.difficulty = true) :
    ctrlStep s = { s with pass := true, result := s.counter, ctrl := .found } := by
  rw [ctrlStep, ht, testStep, if_pos hpred]
  rfl

/-- R85: a failed TEST step at the last counter. -/
theorem ctrlStep_of_last_test {s : State} (ht : s.ctrl = .test) (hpred : pred s.digest s.difficulty = false)
    (hlast : s.counter + 1 = 0) : ctrlStep s = { s with pass := false, counter := 0, ctrl := .exhausted } := by
  rw [ctrlStep, ht, testStep, if_neg (by simp [hpred]), if_pos hlast, hlast]
  rfl

/-- R85: a failed TEST step at any other counter. -/
theorem ctrlStep_of_failed_test {s : State} (ht : s.ctrl = .test) (hpred : pred s.digest s.difficulty = false)
    (hmore : s.counter + 1 ≠ 0) :
    ctrlStep s = { s with pass := false, counter := s.counter + 1, ctrl := .issue } := by
  rw [ctrlStep, ht, testStep, if_neg (by simp [hpred]), if_neg hmore]
  rfl

theorem advance_message (s : State) : (advance s).message = s.message := by
  have h := advance_sameBlock s
  exact State.message_congr h.plen h.payload h.counter

/-- Settles O35: the step in ISSUE, whose message the turn does not change. -/
theorem issueStepSendsTheMessage : Obligations.IssueStepSendsTheMessage := by
  intro s hturn hissue
  calc step s = .next (ctrlStep (advance s)) := step_of_nextAgent hturn
    _ = .next (issueStep (advance s)) := by rw [ctrlStep_of_issue ((advance_ctrl s).trans hissue)]
    _ = .next { advance s with req := some s.message, ctrl := .wait } := by rw [issueStep, advance_message]; rfl

/-- Settles O36: SHA's two steps, with a request and without. -/
theorem responseStepWritesTheDigest : Obligations.ResponseStepWritesTheDigest := by
  intro s hturn
  have hstep : step s = .next (shaStep (advance s)) := step_of_nextAgent hturn
  refine ⟨fun m hreq => ?request, fun hreq => ?none⟩
  case request => rw [hstep, shaStep_of_request ((advance_req s).trans hreq)]; rfl
  case none => rw [hstep, shaStep, advance_req, hreq]

/-- Settles O37: the three ends of a TEST step, the last counter as a number. -/
theorem testStepStopsOrCountsOn : Obligations.TestStepStopsOrCountsOn := by
  intro s hturn htest
  have hstep : step s = .next (ctrlStep (advance s)) := step_of_nextAgent hturn
  have htest' : (advance s).ctrl = .test := (advance_ctrl s).trans htest
  have hlast := Count.succ_eq_zero_iff s.counter
  rw [hstep, ← advance_digest s, ← advance_difficulty s]
  rw [← advance_counter s] at hlast ⊢
  refine ⟨fun hpred => ?_, fun hpred hc => ?_, fun hpred hc => ?_⟩
  · rw [ctrlStep_of_passed_test htest' hpred]
  · rw [ctrlStep_of_last_test htest' hpred (hlast.mpr hc)]
  · rw [ctrlStep_of_failed_test htest' hpred (mt hlast.mp hc.ne)]

/-! ## Outside a search -/

/-- Settles O47: of the effects of a step only SEARCH's makes the block BUSY, and CTRL_FSM and SHA find no step enabled. -/
theorem quiescentUntilCommanded : Obligations.QuiescentUntilCommanded := by
  intro s t hs hb h
  have hb' : (advance s).busy = false := (advance_busy s).trans hb
  cases effect_of_step h with
  | quiet ha hblock _ => exact ⟨by simp [ha], by simp [hblock.busy, hb]⟩
  | transaction ha hx heff =>
    refine ⟨by simp [ha], fun hbusy => ⟨ha, _, _, hx, ?_⟩⟩
    rcases heff.ctrl_eq_or_command with hc | ⟨_, hi⟩ | ⟨hc, _⟩
    · simp [State.busy_congr hc, hb] at hbusy
    · exact decodeBustx_eq_wr_of_command rfl hi
    · simp [State.busy, hc] at hbusy
  | ctrl _ => rw [ctrlStep_of_not_busy hb']; exact ⟨fun _ => rfl, by simp [hb]⟩
  | sha _ => rw [shaStep_of_not_busy (advance_inv hs) hb']; exact ⟨fun _ => rfl, by simp [hb]⟩
  | reset ha => exact ⟨by simp [ha], by simp [State.busy]⟩

/-! ## A search, step by step -/

/-- Settles O48: what an accepted SEARCH keeps is the payload and the difficulty, and no counter is below 0. -/
theorem acceptedSearchIsSearching : Obligations.AcceptedSearchIsSearching := by
  intro s hs hb hp
  refine ⟨startSearch s, exec_search_of_accepted hb hp, ?_, rfl, rfl⟩
  exact
    { inv := startSearch_inv hs hb hp
      busy := rfl
      payload := rfl
      difficulty := rfl
      failed := fun c hc => absurd hc BitVec.not_lt_zero }

section Searching

variable {s t : State} {p : List Byte} {n : Word}

/-- A search is about the block alone, and not about its error bits. -/
theorem State.Searching.of_sameBlock (hs : s.Searching p n) (h : SameBlock s t) : t.Searching p n where
  inv := hs.inv.of_sameBlock h
  busy := h.busy.trans hs.busy
  payload := (State.payBytes_congr h.plen h.payload).trans hs.payload
  difficulty := h.difficulty.trans hs.difficulty
  failed := by rw [h.counter]; exact hs.failed

/-- R79, R83: in TEST the digest is the one of COUNTER. -/
theorem State.Searching.digest_eq (hs : s.Searching p n) (ht : s.ctrl = .test) :
    s.digest = sha256 (p ++ le64 s.counter) := by
  rw [hs.inv.digest ht, State.message, hs.payload]

/-- So that a TEST step tells whether COUNTER solves. -/
theorem State.Searching.pred_eq (hs : s.Searching p n) (ht : s.ctrl = .test) :
    pred s.digest s.difficulty = solves p n s.counter := by
  rw [hs.digest_eq ht, hs.difficulty, solves]

theorem State.Searching.failed_le (hs : s.Searching p n) (hfail : solves p n s.counter = false) {c : Count}
    (hc : c.toNat ≤ s.counter.toNat) : solves p n c = false := by
  rcases hc.lt_or_eq with hlt | heq
  · exact hs.failed c hlt
  · rwa [BitVec.eq_of_toNat_eq heq]

/-- R81. -/
theorem issueStep_searching (hs : s.Searching p n) (hi : s.ctrl = .issue) : (issueStep s).Searching p n where
  inv := issueStep_inv hs.inv hi
  busy := rfl
  payload := hs.payload
  difficulty := hs.difficulty
  failed := hs.failed

/-- R83. -/
theorem shaStep_searching (hs : s.Searching p n) : (shaStep s).Searching p n := by
  have hinv := shaStep_inv hs.inv
  have hbusy := shaStep_busy hs.busy
  rcases shaStep_cases s with ⟨_, e⟩ | ⟨m, _, e⟩ <;> rw [e] at hinv hbusy ⊢
  · exact hs
  · exact ⟨hinv, hbusy, hs.payload, hs.difficulty, hs.failed⟩

/-- R85, R96: a TEST step at a solution. -/
theorem State.Searching.ends_found (hs : s.Searching p n) (ht : s.ctrl = .test)
    (hsolves : solves p n s.counter = true) :
    (ctrlStep s).EndsFound p n ∧ (ctrlStep s).result = s.counter := by
  rw [ctrlStep_of_passed_test ht ((hs.pred_eq ht).trans hsolves)]
  exact ⟨⟨rfl, ⟨hsolves, hs.failed⟩, rfl, rfl, hs.digest_eq ht, rfl⟩, rfl⟩

/-- R85, R87, R96: a failed TEST step at the last counter. -/
theorem State.Searching.ends_exhausted (hs : s.Searching p n) (ht : s.ctrl = .test)
    (hfail : solves p n s.counter = false) (hlast : s.counter + 1 = 0) : (ctrlStep s).EndsExhausted p n := by
  have hmax : s.counter.toNat = 2 ^ 64 - 1 := (Count.succ_eq_zero_iff _).mp hlast
  have hones : s.counter = BitVec.allOnes 64 := BitVec.eq_of_toNat_eq (hmax.trans BitVec.toNat_allOnes.symm)
  obtain ⟨hresult, -⟩ := hs.inv.running hs.busy
  rw [ctrlStep_of_last_test ht ((hs.pred_eq ht).trans hfail) hlast]
  exact
    { ctrl := rfl
      none := fun c => hs.failed_le hfail (by have := c.isLt; omega)
      counter := rfl
      result := hresult
      pass := rfl
      digest := hones ▸ hs.digest_eq ht
      irq := rfl }

/-- R85: a failed TEST step below the last counter. -/
theorem State.Searching.counts_on (hs : s.Searching p n) (ht : s.ctrl = .test)
    (hfail : solves p n s.counter = false) (hmore : s.counter + 1 ≠ 0) :
    (ctrlStep s).Searching p n ∧ (ctrlStep s).ctrl = .issue ∧ (ctrlStep s).counter.toNat = s.counter.toNat + 1 ∧
      (ctrlStep s).schedule = s.schedule := by
  have hinv := ctrlStep_inv hs.inv
  rw [ctrlStep_of_failed_test ht ((hs.pred_eq ht).trans hfail) hmore] at hinv ⊢
  refine ⟨⟨hinv, rfl, hs.payload, hs.difficulty, fun c hc => hs.failed_le hfail ?_⟩, rfl, Count.toNat_succ hmore, rfl⟩
  have hlt : c.toNat < (s.counter + 1).toNat := hc
  rw [Count.toNat_succ hmore] at hlt
  omega

/-- A step of CTRL_FSM takes a search on, or to its end. -/
theorem ctrlStep_searching_or_ends (hs : s.Searching p n) :
    (ctrlStep s).Searching p n ∨ (ctrlStep s).Ends p n := by
  rcases s.busy_iff.mp hs.busy with hi | hw | ht
  · rw [ctrlStep_of_issue hi]
    exact .inl (issueStep_searching hs hi)
  · rw [ctrlStep_of_wait hw]
    exact .inl hs
  · cases hsolves : solves p n s.counter with
    | true => exact .inr (.inl (hs.ends_found ht hsolves).left)
    | false =>
      by_cases hlast : s.counter + 1 = 0
      · exact .inr (.inr (hs.ends_exhausted ht hsolves hlast))
      · exact .inl (hs.counts_on ht hsolves hlast).left

/-- So does every step but reset: the host does not reach a running search (R54). -/
theorem step_searching_or_ends (hs : s.Searching p n) (hplatform : nextAgent s ≠ .platform) (h : step s = .next t) :
    t.Searching p n ∨ t.Ends p n := by
  have hadv := hs.of_sameBlock (advance_sameBlock s)
  cases effect_of_step h with
  | quiet _ hblock _ => exact .inl (hs.of_sameBlock hblock)
  | transaction _ _ heff =>
    exact .inl (hadv.of_sameBlock ((setHostOps_sameBlock _ _).trans (heff.sameBlock_of_busy hadv.busy)))
  | ctrl _ => exact ctrlStep_searching_or_ends hadv
  | sha _ => exact .inl (shaStep_searching hadv)
  | reset ha => exact absurd ha hplatform

theorem State.Ends.done (h : t.Ends p n) : t.done = true :=
  t.done_iff.mpr (h.imp (·.ctrl) (·.ctrl))

theorem State.Ends.not_busy (h : t.Ends p n) : t.busy = false := by
  rcases h with h | h <;> rw [State.busy, h.ctrl]

end Searching

/-- Settles O49: by induction on the number of steps; a run that the search's end cut short would not be BUSY there. -/
theorem searchEndsWithTheLeastSolution : Obligations.SearchEndsWithTheLeastSolution := by
  intro p n k
  induction k with
  | zero =>
    intro s t hs _ hrun
    obtain rfl := Host.Outcome.next.inj hrun
    exact .inl ⟨hs.busy, hs⟩
  | succ k ih =>
    intro s t hs hgoes hrun
    obtain ⟨_, u, hu⟩ := everyStepHasANextState s
    obtain ⟨_, hplatform⟩ := hgoes 0 s k.succ_pos rfl
    have hrun' : Sys2Proof.core.run k u = .next t := (run_next k hu).symm.trans hrun
    have hgoes' (j : Nat) (v : State) (hj : j < k) (hv : Sys2Proof.core.run j u = .next v) :
        State.busy v = true ∧ nextAgent v ≠ .platform :=
      hgoes (j + 1) v (Nat.succ_lt_succ hj) ((run_next j hu).trans hv)
    rcases step_searching_or_ends hs hplatform hu with hsearch | hend
    · exact ih u t hsearch hgoes' hrun'
    · cases k with
      | zero =>
        obtain rfl := Host.Outcome.next.inj hrun'
        exact .inr ⟨hend.done, hend⟩
      | succ k =>
        obtain ⟨hbusy, _⟩ := hgoes' 0 u k.succ_pos rfl
        exact absurd hbusy (by simp [hend.not_busy])

/-! ## One end -/

/-- R89: `min S` is one counter. -/
theorem IsSolution.unique {p : List Byte} {n : Word} {c c' : Count} (h : IsSolution p n c) (h' : IsSolution p n c') :
    c = c' := by
  obtain ⟨hsolves, hleast⟩ := h
  obtain ⟨hsolves', hleast'⟩ := h'
  have hge : ¬ c < c' := fun hlt => by simp [hleast' c hlt] at hsolves
  have hle : ¬ c' < c := fun hlt => by simp [hleast c' hlt] at hsolves'
  exact BitVec.le_antisymm (BitVec.not_lt.mp hle) (BitVec.not_lt.mp hge)

/-- R90: the end state of a search is fixed by its payload and difficulty. -/
theorem State.Ends.unique {t t' : State} {p : List Byte} {n : Word} (h : t.Ends p n) (h' : t'.Ends p n) :
    t.ctrl = t'.ctrl ∧ t.result = t'.result ∧ t.counter = t'.counter ∧ t.digest = t'.digest ∧ t.pass = t'.pass := by
  have clash {u v : State} (hu : u.EndsFound p n) (hv : v.EndsExhausted p n) : False := by
    obtain ⟨hsolves, _⟩ := hu.least
    simp [hv.none] at hsolves
  rcases h with h | h <;> rcases h' with h' | h'
  · have hresult : t.result = t'.result := h.least.unique h'.least
    exact ⟨h.ctrl.trans h'.ctrl.symm, hresult, by rw [h.counter, h'.counter, hresult],
      by rw [h.digest, h'.digest, hresult], h.pass.trans h'.pass.symm⟩
  · exact (clash h h').elim
  · exact (clash h' h).elim
  · exact ⟨h.ctrl.trans h'.ctrl.symm, h.result.trans h'.result.symm, h.counter.trans h'.counter.symm,
      h.digest.trans h'.digest.symm, h.pass.trans h'.pass.symm⟩

theorem State.Searching.ends_of_runEnds {s t : State} {p : List Byte} {n : Word} {k : Nat} (hs : s.Searching p n)
    (h : s.RunEnds k t) : t.Ends p n := by
  obtain ⟨hgoes, hrun, hdone⟩ := h
  rcases searchEndsWithTheLeastSolution p n k s t hs hgoes hrun with ⟨hbusy, _⟩ | ⟨_, hend⟩
  · exact absurd hdone (by simp [State.done_eq_false_of_busy hbusy])
  · exact hend

/-- Settles O50: both runs end in the one end state of their search. -/
theorem searchEndIsDetermined : Obligations.SearchEndIsDetermined :=
  fun _ _ _ _ _ _ _ _ hs hs' h h' => (hs.ends_of_runEnds h).unique (hs'.ends_of_runEnds h')

/-! ## Rounds -/

/-- After ISSUE and response, with the agents `l` left to step: the digest of COUNTER's message waits to be tested. -/
def State.readyToTest (s : State) (l : List Agent) : State :=
  { s with digest := sha256 s.message, req := none, ctrl := .test, schedule := l }

/-- R94: a round is ISSUE, the response, and TEST. -/
theorem run_searchRound {s : State} {l : List Agent} (hi : s.ctrl = .issue) (hsched : s.schedule = searchRound ++ l)
    (k : Nat) : Sys2Proof.core.run (k + 3) s = Sys2Proof.core.run k (ctrlStep (s.readyToTest l)) := by
  have hissue : step s = .next (issueStep { s with schedule := .sha :: .ctrl :: l }) := by
    rw [step_scheduled hsched]
    exact congrArg Host.Outcome.next (ctrlStep_of_issue hi)
  have hrespond : step (issueStep { s with schedule := .sha :: .ctrl :: l }) =
      .next (s.readyToTest (.ctrl :: l)) := rfl
  have htest : step (s.readyToTest (.ctrl :: l)) = .next (ctrlStep (s.readyToTest l)) := rfl
  rw [run_next _ hissue, run_next _ hrespond, run_next _ htest]

theorem State.readyToTest_searching {s : State} {p : List Byte} {n : Word} (hs : s.Searching p n)
    (hi : s.ctrl = .issue) (l : List Agent) : (s.readyToTest l).Searching p n :=
  (shaStep_searching (issueStep_searching hs hi)).of_sameBlock ⟨rfl, rfl, rfl, rfl, rfl, rfl, rfl, rfl, rfl, rfl⟩

/-- `m` failed rounds and a last one, from ISSUE on: the run is at the TEST step of the counter `m` further on. -/
theorem run_rounds_to_test {p : List Byte} {n : Word} {rest : List Agent} {m : Nat} {s : State}
    (hs : s.Searching p n) (hi : s.ctrl = .issue) (hm : s.counter.toNat + m < 2 ^ 64)
    (hfail : ∀ c : Count, c.toNat < s.counter.toNat + m → solves p n c = false)
    (hsched : s.schedule = (List.replicate (m + 1) searchRound).flatten ++ rest) :
    ∃ v : State, v.Searching p n ∧ v.ctrl = .test ∧ v.counter.toNat = s.counter.toNat + m ∧
      Sys2Proof.core.run (3 * (m + 1)) s = .next (ctrlStep v) := by
  induction m generalizing s with
  | zero => exact ⟨s.readyToTest rest, State.readyToTest_searching hs hi rest, rfl, rfl, run_searchRound hi hsched 0⟩
  | succ m ih =>
    rw [List.replicate_succ, List.flatten_cons, List.append_assoc] at hsched
    generalize hl : (List.replicate (m + 1) searchRound).flatten ++ rest = l at hsched
    have hmore : s.counter + 1 ≠ 0 := fun h0 => by
      have := (Count.succ_eq_zero_iff _).mp h0
      omega
    obtain ⟨hnext, hissue, hcounter, hsched'⟩ :=
      (State.readyToTest_searching hs hi l).counts_on rfl (hfail s.counter (by omega)) hmore
    have hcount : (ctrlStep (s.readyToTest l)).counter.toNat + m = s.counter.toNat + (m + 1) := by
      rw [hcounter, Nat.add_right_comm, Nat.add_assoc]
      rfl
    obtain ⟨v, hv, htest, hvc, hrun⟩ := ih hnext hissue (by rwa [hcount]) (by rwa [hcount]) (hsched'.trans hl.symm)
    exact ⟨v, hv, htest, hvc.trans hcount, (run_searchRound hi hsched (3 * (m + 1))).trans hrun⟩

/-- Settles O52: every round before the one of `c` fails, and `c` solves. -/
theorem searchFindsAfterItsRounds : Obligations.SearchFindsAfterItsRounds := by
  intro p n c s rest hs hi h0 ⟨hsolves, hleast⟩ hsched
  have hstart : s.counter.toNat + c.toNat = c.toNat := by simp [h0]
  obtain ⟨v, hv, htest, hvc, hrun⟩ :=
    run_rounds_to_test hs hi (by rw [hstart]; exact c.isLt) (by rw [hstart]; exact hleast) hsched
  obtain rfl : v.counter = c := BitVec.eq_of_toNat_eq (hvc.trans hstart)
  exact ⟨ctrlStep v, hrun, hv.ends_found htest hsolves⟩

/-- Settles O53: every round fails, and the last one is that of the last counter. -/
theorem searchExhaustsAfterAllRounds : Obligations.SearchExhaustsAfterAllRounds := by
  intro p n s rest hs hi hnone hsched
  obtain ⟨m, hm⟩ : ∃ m, 2 ^ 64 - s.counter.toNat = m + 1 :=
    Nat.exists_eq_succ_of_ne_zero (by have := s.counter.isLt; omega)
  rw [hm] at hsched ⊢
  obtain ⟨v, hv, htest, hvc, hrun⟩ := run_rounds_to_test hs hi (by omega) (fun c _ => hnone c) hsched
  exact ⟨ctrlStep v, hrun, hv.ends_exhausted htest (hnone _) ((Count.succ_eq_zero_iff _).mpr (by omega))⟩

/-- R65, R78: the host's `CMD SEARCH`, where the search is accepted. -/
theorem step_of_search_line {s : State} {ops : List HostOp} {l : List Agent} (hb : s.busy = false)
    (hp : s.plen.toNat ≤ s.maxPay.toNat) (hline : s.hostOps = .tx (wrTx 0x000#32 0x00000002#32) :: ops)
    (hsched : s.schedule = .host :: l) : step s = .next (startSearch { s with schedule := l, hostOps := ops }) := by
  obtain ⟨_, hrun⟩ := commandRunsWhenWrittenToCtrl s 0x00000002#32 .search rfl
  rw [hrun ops (nextAgent_of_schedule_cons hsched) hline, advance_of_schedule_cons hsched]
  exact exec_search_of_accepted hb hp

/-- R69. -/
theorem pred_zero (d : Digest) : pred d 0#32 = true := by
  obtain ⟨hzero, _⟩ := predAtTheEdges d
  exact hzero

/-- Settles O54: the host's SEARCH, and a round whose test passes, as every digest does at difficulty 0. -/
theorem difficultyZeroFindsCounterZero : Obligations.DifficultyZeroFindsCounterZero := by
  intro s ops rest hb hp hn hline hsched
  have hsearch := step_of_search_line hb hp hline hsched
  have hround := run_searchRound (s := startSearch { s with schedule := searchRound ++ rest, hostOps := ops }) rfl rfl 0
  have htest := ctrlStep_of_passed_test
    (s := (startSearch { s with schedule := searchRound ++ rest, hostOps := ops }).readyToTest rest) rfl
    (hn ▸ pred_zero _)
  exact ⟨_, ((run_next 3 hsearch).trans hround).trans (congrArg Host.Outcome.next htest), rfl, rfl, rfl, rfl⟩

end Sys2Proof.Machine
end

section
/-! Proofs of the family 42_control.md: NOP, CLEAR, and the case table of a read. -/

namespace Sys2Proof.Machine

/-! ## NOP and CLEAR -/

/-- Settles O23: NOP answers the state it is given. -/
theorem nopHasNoEffect : Obligations.NopHasNoEffect := by
  intro s
  rw [exec, execNop]

/-- Settles O26: the two branches of CLEAR, which DONE tells apart. -/
theorem clearAcknowledges : Obligations.ClearAcknowledges := by
  refine fun s => ⟨fun hend => ?finished, fun hfound hexhausted => ?kept⟩
  case finished =>
    rw [exec, execClear, if_pos (s.done_iff.mpr hend), State.clearErrors, State.setCtrl]
  case kept =>
    have hnot : ¬ s.done = true := fun hd => (s.done_iff.mp hd).elim hfound hexhausted
    rw [exec, execClear, if_neg hnot, State.clearErrors]

/-! ## The case table of a read -/

@[simp] theorem target_resultLoOffset (cap : Word) : target cap 0x018#32 = .resultLo := by simp [target]

@[simp] theorem target_resultHiOffset (cap : Word) : target cap 0x01C#32 = .resultHi := by simp [target]

/-- R39, R99: a read of an offset at which nothing stands. -/
theorem exec_rd_of_unmapped {s : State} {off : Word}
    (h : target s.maxPay off = .misaligned ∨ target s.maxPay off = .reserved) :
    exec (.rd off) s = .next { s with errAccess := true, rdata := 0 } := by
  rcases h with h | h <;> rw [exec_rd_of_target h, readEffect, readWord, State.raise_access_eq] <;> rfl

/-- Settles O27: each line of the table is what the register map names there, and the word its read returns. -/
theorem readReturnsTheWord : Obligations.ReadReturnsTheWord := by
  refine fun s off => ⟨?misaligned, ?ctrl, ?status, ?difficulty, ?plen, ?counterLo, ?counterHi, ?resultLo, ?resultHi,
    ?maxPay, ?digest, ?payload, ?reserved⟩
  case misaligned => exact fun hmis => exec_rd_of_unmapped (.inl (target_misaligned hmis))
  case ctrl => rintro rfl; exact exec_rd_of_readable (target_ctrlOffset _) rfl rfl
  case status => rintro rfl; exact exec_rd_status s
  case difficulty => rintro rfl; exact exec_rd_of_readable (target_difficultyOffset _) rfl rfl
  case plen => rintro rfl; exact exec_rd_of_readable (target_plenOffset _) rfl rfl
  case counterLo => rintro rfl; exact exec_rd_of_readable (target_counterLoOffset _) rfl rfl
  case counterHi => rintro rfl; exact exec_rd_of_readable (target_counterHiOffset _) rfl rfl
  case resultLo => rintro rfl; exact exec_rd_of_readable (target_resultLoOffset _) rfl rfl
  case resultHi => rintro rfl; exact exec_rd_of_readable (target_resultHiOffset _) rfl rfl
  case maxPay => rintro rfl; exact exec_rd_maxPay s
  case digest => exact fun k hk hoff => exec_rd_of_readable (target_digest hk hoff) rfl rfl
  case payload => exact fun k hk hoff => exec_rd_of_readable (target_payload hk hoff) rfl rfl
  case reserved => exact fun h4 hres => exec_rd_of_unmapped (.inr (target_reserved h4 hres))

end Sys2Proof.Machine
end

section
/-! Proofs of the family 60_exceptions.md: the error bits an instruction can touch. -/

namespace Sys2Proof.Machine

/-! ## One error bit at a time -/

theorem State.clearErrors_errorCount (s : State) : s.clearErrors.errorCount = 0 := rfl

/-- R110, R111: of an instruction's effects, two raise an error bit, CLEAR's two clear all four, and the rest leave them. -/
theorem HostEffect.errors_same_or_raised_or_cleared {i : Instr} {s t : State} (h : HostEffect i s t) :
    SameErrors s t ∨
    (∃ e, SameErrors (s.raise e) t ∧ SameBlock s t) ∨
    ((i = .clear ∨ i = .wr 0x000#32 0x00000003#32) ∧ t.errorCount = 0) := by
  cases h with
  | raised e => exact .inr (.inl ⟨e, ⟨rfl, rfl, rfl, rfl⟩, ⟨rfl, rfl, rfl, rfl, rfl, rfl, rfl, rfl, rfl, rfl⟩⟩)
  | readError =>
    refine .inr (.inl ⟨.access, ?_, ⟨rfl, rfl, rfl, rfl, rfl, rfl, rfl, rfl, rfl, rfl⟩⟩)
    rw [State.raise_access_eq]
    exact ⟨rfl, rfl, rfl, rfl⟩
  | clearDone _ hi | clear _ hi => exact .inr (.inr ⟨hi, s.clearErrors_errorCount⟩)
  | nothing | read | check | search | difficulty | plen | digest | payload => exact .inl ⟨rfl, rfl, rfl, rfl⟩

/-- Settles O42: an instruction's effect on the error bits, read off the list of its effects. -/
theorem atMostOneErrorIsRaised : Obligations.AtMostOneErrorIsRaised :=
  fun _ _ _ h => (effect_of_exec h).errors_same_or_raised_or_cleared

end Sys2Proof.Machine
end

section
/-! Proofs of the family 70_reset_and_hazards.md: the reset step, the block it leaves, and the payload buffer it keeps. -/

namespace Sys2Proof.Machine

/-! ## The platform's step -/

/-- R121, R122: the platform's turn is the reset step, in any state. -/
theorem step_of_platform {s : State} (hturn : nextAgent s = .platform) : step s = .next (resetStep (advance s)) :=
  step_of_nextAgent hturn

theorem eq_resetStep_of_platform {s t : State} (hturn : nextAgent s = .platform) (h : step s = .next t) :
    t = resetStep (advance s) := by
  rw [step_of_platform hturn, Host.Outcome.next.injEq] at h
  exact h.symm

/-- Settles O14: the platform's turn is the reset step, and the statement lists the fields that the reset step sets. -/
theorem resetStepClearsTheBlock : Obligations.ResetStepClearsTheBlock := by
  intro s hturn
  rw [step_of_platform hturn, resetStep]

/-! ## The block that reset leaves -/

/-- R83: without a request SHA has no step enabled, whether or not the invariant holds. -/
theorem shaStep_of_no_request {s : State} (h : s.req = none) : shaStep s = s := by rw [shaStep, h]

theorem resetStep_busy (s : State) : (resetStep s).busy = false := rfl

theorem resetStep_irq (s : State) : (resetStep s).irq = false := State.done_eq_false (.inr (resetStep_ctrl s))

theorem resetStep_statusWord (s : State) : (resetStep s).statusWord = 0x00000000#32 :=
  State.statusWord_eq_zero (resetStep_ctrl s) (resetStep_pass s) (resetStep_errCmd s) (resetStep_errBusy s)
    (resetStep_errParam s) (resetStep_errAccess s)

/-- Settles O15: the block is not BUSY and has no request, so neither of its agents has a step, and STATUS is 0. -/
theorem resetLeavesQuiescentIdle : Obligations.ResetLeavesQuiescentIdle := by
  intro s t hturn h
  rw [eq_resetStep_of_platform hturn h]
  refine ⟨resetStep_ctrl _, ?ctrl, ?sha, resetStep_irq _, ?status⟩
  case ctrl => exact ctrlStep_of_not_busy (resetStep_busy _)
  case sha => exact shaStep_of_no_request (resetStep_req _)
  case status => rw [exec_rd_status, resetStep_statusWord]

/-! ## The payload buffer -/

/-- A payload byte depends on the buffer alone. -/
theorem State.payByte_congr {s t : State} (h : t.payload = s.payload) (i : Nat) : t.payByte i = s.payByte i := by
  rw [State.payByte, State.payByte, h]

/-- Before the first write to the buffer each byte is its free draw (log 3), whatever the capacity. -/
theorem State.resetWith_payByte (cap : Word) (i : Nat) : (State.resetWith cap).payByte i = Config.powerOnByte i := rfl

theorem resetStep_advance_payload (s : State) : (resetStep (advance s)).payload = s.payload :=
  (resetStep_payload _).trans (advance_sameBlock s).payload

/-- Settles O16: nothing is listed in the buffer after the first reset, and a later reset step leaves the buffer. -/
theorem payloadSurvivesReset : Obligations.PayloadSurvivesReset := by
  refine ⟨State.resetWith_payByte _, fun s t hturn h => ?_⟩
  rw [eq_resetStep_of_platform hturn h]
  exact State.payByte_congr (resetStep_advance_payload s)

end Sys2Proof.Machine
end
